-- ==== Sys2Proof/Word.lean ====
section
/-! DEFINITION. The word types of the block and their plainest arithmetic (spec/00_scope.md R7): every value is
an unsigned bit vector, bit 0 the least significant. -/

namespace Sys2Proof

/-- A byte, `v[7:0]` (R7). -/
abbrev Byte := BitVec 8

/-- A half-word, 16 bits (R7). -/
abbrev Half := BitVec 16

/-- A word, 32 bits (R7). -/
abbrev Word := BitVec 32

end Sys2Proof
end

