-- ==== Sys2Proof/Config.lean ====
section
/-! DEFINITION. What an implementation of the block fixes: the constants of spec/00_scope.md R6, the parameters a
model takes as arguments (R6, spec/92_eei_decisions.md "Open parameters, in one place"), and the free values, which
are opaque constants without a body so that no proof can see what they are. -/

namespace Sys2Proof.Config

/-! ### Durations in microseconds (R6) -/

/-- Read slot: time the line is pulled low. -/
def tRdLow : Nat := 6
/-- Read slot: release to sample. -/
def tRdWait : Nat := 9
/-- Read slot: sample to end of slot. -/
def tRdRec : Nat := 55
/-- Write-1 slot: low time. -/
def tW1Low : Nat := 6
/-- Write-1 slot: released time. -/
def tW1Rec : Nat := 64
/-- Write-0 slot: low time. -/
def tW0Low : Nat := 60
/-- Write-0 slot: released time. -/
def tW0Rec : Nat := 10
/-- Reset: low time. -/
def tRstLow : Nat := 480
/-- Reset: release to presence sample. -/
def tRstWait : Nat := 70
/-- Reset: sample to end of recovery. -/
def tRstRec : Nat := 410
/-- Settle delay between the page frame and the MAC frame, `T_CSHA`, at the width of `US_TIMER`. -/
def tCsha : BitVec 17 := 2000

/-- `N_ATTEMPTS`: the attempt budget of every retried unit. -/
def nAttempts : Nat := 3

/-- `CRC16_RESIDUAL`: the value of CRC16 over a valid frame. -/
def crc16Residual : Half := 0xB001

/-! ### Wire command bytes (R6, spec/30_encoding.md R94 to R97) -/

/-- `CMD_READ_ROM`. -/
def cmdReadRom : Byte := 0x33
/-- `CMD_SKIP_ROM`. -/
def cmdSkipRom : Byte := 0xCC
/-- `CMD_WRITE_CHALLENGE`. -/
def cmdWriteChallenge : Byte := 0x0F
/-- `CMD_READ_AUTH_PAGE`: the command byte and its two constant address bytes (R96). -/
def cmdReadAuthPage : List Byte := [0xA5, 0x00, 0x00]
/-- `CMD_SOFT_RESET`: the opaque seven-byte sequence (R97). -/
def cmdSoftReset : List Byte := [0x55, 0x00, 0x00, 0xFF, 0xFF, 0xFF, 0xFF]

/-- `SHA1_IV` (R6). -/
def sha1Iv : Vector Word 5 := #v[0x67452301, 0xEFCDAB89, 0x98BADCFE, 0x10325476, 0xC3D2E1F0]

/-! ### Parameters of the block -/

/-- `SECRET_EXTRACT` (R6, spec/44_authentication.md R219): how 8 secret bytes come out of the 5 hash words. -/
inductive SecretExtract where
  /-- The eight bytes at these places of the 20-byte stream of R219 (the last word first, low half then high half,
  each half low byte first). The default of R219 takes places 0 to 7. -/
  | stream (places : Vector (Fin 20) 8)
  /-- Any other function from five words to eight bytes: the free value `secretExtractOther`. -/
  | other
  deriving DecidableEq, Repr

/-- One entry of `MAC_LAYOUT` (spec/30_encoding.md R112): where a byte of the MAC message block comes from. -/
inductive MacSource where
  | secret (i : Fin 8)
  | page (i : Fin 28)
  | chal (i : Fin 12)
  | ident (i : Fin 8)
  | const (b : Byte)
  deriving DecidableEq, Repr

/-- `N_PAGE_READ` (R6): 31, or the alternative 30 of conflict C1. -/
inductive PageRead where
  | read31
  | read30
  deriving DecidableEq, Repr

/-- The number of bytes a `PageRead` names. -/
def PageRead.count : PageRead → BitVec 6
  | .read31 => 31
  | .read30 => 30

/-- `T_GAP` (R6, spec/40_bit_transport.md R137): a fixed idle time, or a fresh draw for every gap. -/
inductive Gap where
  | fixed (us : Nat)
  | drawn
  deriving DecidableEq, Repr

/-- The parameters of one implementation of the block: an argument of the model, never written by a step. -/
structure Params where
  secretTemplate : Vector Byte 64
  secretIdOffset : Fin 57
  secretExtract : SecretExtract
  macLayout : Vector MacSource 64
  nPageRead : PageRead
  presenceRetry : Bool
  sha1FeedForward : Bool
  tGap : Gap
  tSoftSettle : BitVec 17
  clkPerUs : Nat
  deriving DecidableEq, Repr

/-- The constraints spec/92_eei_decisions.md puts on the parameters that their types do not say: `CLK_PER_US` is at
least 1 and `T_SOFT_SETTLE` at least 100000. -/
def Params.wf (p : Params) : Bool := decide (1 ≤ p.clkPerUs) && decide (100000 ≤ p.tSoftSettle.toNat)

/-! ### Free values: nothing constrains them -/

/-- OPEN: the 64 constant bytes of the secret template of the block as built (D11; DESIGN CHOICE, log entry 3). -/
opaque secretTemplate : Vector Byte 64

/-- OPEN: where the identifier is copied into the template of the block as built (D11; DESIGN CHOICE, log entry 3). -/
opaque secretIdOffset : Fin 57

/-- OPEN: clock cycles per microsecond of the block as built, less one (D1; DESIGN CHOICE, log entry 3). -/
opaque clkPerUsLessOne : Nat

/-- Free: a secret extraction other than a selection of bytes of the hash stream (D12; DESIGN CHOICE, log entry 4). -/
opaque secretExtractOther : Vector Word 5 → Vector Byte 8

/-- Free: the level the line environment shows at the n-th sample the state's script says nothing about (U9, U10; log
entry 5). -/
opaque freeLevel : Nat → Bool

/-- Free: the n-th answer of the challenge source the state's script says nothing about (U11; DESIGN CHOICE, log entry 5). -/
opaque freeChallenge : Nat → BitVec 96

/-- Free: the n-th idle gap when `T_GAP` is a draw (U8; DESIGN CHOICE, log entry 6). -/
opaque freeGap : Nat → Nat

/-! ### Defaults -/

/-- The default of `SECRET_EXTRACT` (R219): the first 8 of the 20 bytes. -/
def secretExtractDefault : SecretExtract := .stream #v[0, 1, 2, 3, 4, 5, 6, 7]

/-- The default of `MAC_LAYOUT`, row by row the table of spec/30_encoding.md R112. -/
def macSourceDefault (i : Fin 64) : MacSource :=
  if h0 : i.val < 4 then .secret ⟨i.val, by omega⟩
  else if h1 : i.val < 32 then .page ⟨i.val - 4, by omega⟩
  else if h2 : i.val < 36 then .chal ⟨i.val - 32 + 8, by omega⟩
  else if h3 : i.val < 40 then .chal ⟨i.val - 36, by omega⟩
  else if i.val < 41 then .chal 7
  else if h5 : i.val < 48 then .ident ⟨i.val - 41, by omega⟩
  else if h6 : i.val < 52 then .secret ⟨i.val - 48 + 4, by omega⟩
  else if h7 : i.val < 55 then .chal ⟨i.val - 52 + 4, by omega⟩
  else if i.val < 56 then .const 0x80
  else if i.val < 62 then .const 0x00
  else if i.val < 63 then .const 0x01
  else .const 0xB8

/-- The default layout as the 64-entry table R112 calls it. -/
def macLayoutDefault : Vector MacSource 64 := Vector.ofFn macSourceDefault

/-- A block with the defaults of R6 for every parameter but the three R6 leaves OPEN, which are arguments. -/
def defaults (template : Vector Byte 64) (offset : Fin 57) (clk : Nat) : Params where
  secretTemplate := template
  secretIdOffset := offset
  secretExtract := secretExtractDefault
  macLayout := macLayoutDefault
  nPageRead := .read31
  presenceRetry := false
  sha1FeedForward := true
  tGap := .fixed 0
  tSoftSettle := 100000
  clkPerUs := clk

/-- The block as built: the defaults of R6, the OPEN parameters free (DESIGN CHOICE, log entry 3). -/
def built : Params := defaults secretTemplate secretIdOffset (clkPerUsLessOne + 1)

end Sys2Proof.Config
end

