-- ==== Sys2Proof/Syntax.lean ====
section
/-! DEFINITION. The instructions: one constructor of `Instr` for each row of spec/opcode_table.json, in the table's
order, their operands, and the encoded forms (`Code`) in which an instruction stands on one of the block's channels. -/

namespace Sys2Proof

/-- A session buffer of the space `BUF` (spec/20_memory.md R60), in the order R60 names them. -/
inductive Buf where
  | ident
  | chal
  | echo
  | rbuf
  | mbuf
  | secret
  | mach
  | msg
  deriving DecidableEq, Repr

/-- The bytes a buffer holds (spec/10_state.md R21 to R27, R35). -/
def Buf.length : Buf → Nat
  | .ident => 8
  | .chal => 12
  | .echo => 12
  | .rbuf => 31
  | .mbuf => 22
  | .secret => 8
  | .mach => 20
  | .msg => 64

/-- The operand of `CRC16_CHECK` (spec/42_integrity.md R173). -/
inductive Frame where
  | page
  | mac
  | soft
  deriving DecidableEq, Repr

/-- The first operand of `WBLOCK`: "a session buffer or a constant byte sequence" (spec/41_byte_block_codec.md R154). -/
inductive BlockSource where
  | buf (b : Buf)
  | const (bytes : List Byte)
  deriving DecidableEq, Repr

/-- The bytes a block source has. -/
def BlockSource.length : BlockSource → Nat
  | .buf b => b.length
  | .const bytes => bytes.length

/-- The operations of the block, one constructor per row of spec/opcode_table.json, in its order. -/
inductive Instr where
  -- format HC: host command codes (R91, R108)
  | reservedHc00
  | getIdentifier
  | authenticate
  | softReset
  -- format SL: line symbols (R92)
  | wbitOne
  | wbitZero
  | rbitSymbol
  | resetSymbol
  -- formats WC1, WC3, WC7: wire commands (R94 to R97)
  | readRom
  | skipRom
  | writeChallenge
  | readAuthPage
  | softResetTxn
  -- format UOP: micro-operations (R107)
  | reset
  | wbit (b : Bool)
  | rbit
  | delay (n : BitVec 17)
  | wbyte (v : Byte)
  | rbyte
  | wblock (src : BlockSource) (n : BitVec 6)
  | rblock (buf : Buf) (n : BitVec 6)
  | crc8Check
  | crc16Check (frame : Frame)
  | sha1
  | deriveSecret
  | computeMac
  | verifyMac
  | drawChal
  | echoCheck
  -- operations without a code (R107 last paragraph, R116)
  | crc8Update (byte : Byte)
  | crc16Update (byte : Byte)
  | selectRead
  | selectSkip
  | readIdentifier
  deriving DecidableEq, Repr

/-- The shape of a line symbol, the columns of spec/30_encoding.md R92: microseconds low, microseconds released, and
the instant of the sample, if there is one. -/
structure Wave where
  lowUs : Nat
  releasedUs : Nat
  sampleAt : Option Nat
  deriving DecidableEq, Repr

/-- An encoded operation: a channel of the block and what stands on it. The formats of R90 share code values (host
code 01 and label 0x1 are different operations), so a code is read on its channel only. -/
inductive Code where
  /-- Format HC: the 2-bit value on `cmd` (R91). -/
  | hc (cmd : BitVec 2)
  /-- Format SL: a waveform on the line (R92). -/
  | sl (wave : Wave)
  /-- Formats WC1, WC3, WC7: the bytes on the wire, first byte first (R94 to R97). -/
  | wire (bytes : List Byte)
  /-- Format UOP: the label byte (bits 3 to 0; R107), then the operand bytes (DESIGN CHOICE, log entry 9). -/
  | uop (bytes : List Byte)
  /-- The five table rows without a code: their number in the table's order, then the operand byte (DESIGN CHOICE, log entry 9). -/
  | composite (bytes : List Byte)
  deriving DecidableEq, Repr

/-- Why a code is no encoding of an operation. -/
inductive Reject where
  /-- The waveform is none of the four symbols of R92. -/
  | noSuchSymbol
  /-- The bytes are none of the wire commands of R94 to R97, the only ones the block emits (R109). -/
  | noSuchWireCommand
  /-- There is no label byte, or bits 7 to 4 of it are not 0: a label is 4 bits (R107). -/
  | noSuchLabel
  /-- The number is none of the five rows without a code. -/
  | noSuchComposite
  /-- An operand byte is missing. -/
  | operandMissing
  /-- The operand of `WBIT` is 1 bit (R132): bits 7 to 1 of its byte are 0. -/
  | badBit
  /-- The operand of `DELAY` is 17 bits, what `US_TIMER` holds (R31). -/
  | badDelay
  /-- No session buffer (R60) and no constant sequence has this number. -/
  | badBuffer
  /-- The count is over 63, or more than the buffer holds, or not the length of the constant sequence. -/
  | badCount
  /-- No frame of R173 has this number. -/
  | badFrame
  deriving DecidableEq, Repr

end Sys2Proof
end

