-- ==== Sys2Proof/WellFormed.lean ====
section
/-! DEFINITION. Which terms of `Instr` the spec allows: the operands of a block operation must fit
(spec/41_byte_block_codec.md R153, R154; spec/20_memory.md R60: "an index outside the register's length does not occur
in any rule"). Every other operand is legal at every value of its type. -/

namespace Sys2Proof

/-- `WBLOCK buf, n`: the buffer has at least n bytes (R154), a constant sequence has exactly the n bytes named. -/
def BlockSource.fits (src : BlockSource) (n : BitVec 6) : Bool :=
  match src with
  | .buf b => decide (n.toNat ≤ b.length)
  | .const bytes => decide (bytes.length = n.toNat)

/-- An instruction the spec allows. -/
def Instr.wf : Instr → Bool
  | .wblock src n => src.fits n
  | .rblock buf n => decide (n.toNat ≤ buf.length)
  | .reservedHc00 | .getIdentifier | .authenticate | .softReset
  | .wbitOne | .wbitZero | .rbitSymbol | .resetSymbol
  | .readRom | .skipRom | .writeChallenge | .readAuthPage | .softResetTxn
  | .reset | .wbit _ | .rbit | .delay _ | .wbyte _ | .rbyte
  | .crc8Check | .crc16Check _ | .sha1 | .deriveSecret | .computeMac | .verifyMac | .drawChal | .echoCheck
  | .crc8Update _ | .crc16Update _ | .selectRead | .selectSkip | .readIdentifier => true

end Sys2Proof
end

