-- ==== Sys2Proof/Decode.lean ====
section
/-! DEFINITION. Reading an operation from its code, total on every code and rejecting by name, and after it the
encoder, written from the same tables (spec/30_encoding.md R91 to R97, R107). The label of R107 carries no operand
bits: the operand bytes that follow it are this model's layout (DESIGN CHOICE, log entry 9). -/

namespace Sys2Proof

/-! ### Operand bytes -/

/-- The session buffer with this number, numbered in the order of R60. -/
def bufOfCode (b : Byte) : Option Buf :=
  match b.toNat with
  | 0 => some .ident
  | 1 => some .chal
  | 2 => some .echo
  | 3 => some .rbuf
  | 4 => some .mbuf
  | 5 => some .secret
  | 6 => some .mach
  | 7 => some .msg
  | _ => none

/-- The number of a session buffer. -/
def codeOfBuf : Buf → Byte
  | .ident => 0
  | .chal => 1
  | .echo => 2
  | .rbuf => 3
  | .mbuf => 4
  | .secret => 5
  | .mach => 6
  | .msg => 7

/-- The number that says a constant byte sequence follows. -/
def codeOfConst : Byte := 8

/-- The frame with this number (R173's order). -/
def frameOfCode (b : Byte) : Option Frame :=
  match b.toNat with
  | 0 => some .page
  | 1 => some .mac
  | 2 => some .soft
  | _ => none

/-- The number of a frame. -/
def codeOfFrame : Frame → Byte
  | .page => 0
  | .mac => 1
  | .soft => 2

/-- `WBIT b`: the operand byte is 0 or 1. -/
def decodeWbit : List Byte → Except Reject (Instr × List Byte)
  | [] => .error .operandMissing
  | b :: rest =>
    match b.toNat with
    | 0 => .ok (.wbit false, rest)
    | 1 => .ok (.wbit true, rest)
    | _ => .error .badBit

/-- `DELAY n`: three bytes, low byte first, of which 17 bits may be set. -/
def decodeDelay : List Byte → Except Reject (Instr × List Byte)
  | b0 :: b1 :: b2 :: rest =>
    if b2.toNat ≤ 1 then .ok (.delay (BitVec.ofNat 17 (b0.toNat + 256 * b1.toNat + 65536 * b2.toNat)), rest)
    else .error .badDelay
  | _ => .error .operandMissing

/-- `WBYTE v`. -/
def decodeWbyte : List Byte → Except Reject (Instr × List Byte)
  | [] => .error .operandMissing
  | v :: rest => .ok (.wbyte v, rest)

/-- `WBLOCK buf, n`: the source's number, the count, and the bytes themselves where the source is a constant. -/
def decodeWblock : List Byte → Except Reject (Instr × List Byte)
  | src :: count :: rest =>
    if 64 ≤ count.toNat then .error .badCount
    else if src = codeOfConst then
      if rest.length < count.toNat then .error .operandMissing
      else .ok (.wblock (.const (rest.take count.toNat)) (BitVec.ofNat 6 count.toNat), rest.drop count.toNat)
    else match bufOfCode src with
      | none => .error .badBuffer
      | some b =>
        if count.toNat ≤ b.length then .ok (.wblock (.buf b) (BitVec.ofNat 6 count.toNat), rest) else .error .badCount
  | _ => .error .operandMissing

/-- `RBLOCK buf, n`: the buffer's number and the count. -/
def decodeRblock : List Byte → Except Reject (Instr × List Byte)
  | buf :: count :: rest =>
    if 64 ≤ count.toNat then .error .badCount
    else match bufOfCode buf with
      | none => .error .badBuffer
      | some b =>
        if count.toNat ≤ b.length then .ok (.rblock b (BitVec.ofNat 6 count.toNat), rest) else .error .badCount
  | _ => .error .operandMissing

/-- `CRC16_CHECK frame`. -/
def decodeCrc16Check : List Byte → Except Reject (Instr × List Byte)
  | [] => .error .operandMissing
  | f :: rest =>
    match frameOfCode f with
    | none => .error .badFrame
    | some fr => .ok (.crc16Check fr, rest)

/-! ### Channels -/

/-- Format HC (R91; code 00 is reserved, R108). -/
def decodeHc (cmd : BitVec 2) : Instr :=
  match cmd.toNat with
  | 1 => .getIdentifier
  | 2 => .authenticate
  | 3 => .softReset
  | _ => .reservedHc00

/-- Format SL (R92). -/
def decodeSl (w : Wave) : Except Reject Instr :=
  if w = ⟨6, 64, none⟩ then .ok .wbitOne
  else if w = ⟨60, 10, none⟩ then .ok .wbitZero
  else if w = ⟨6, 64, some 15⟩ then .ok .rbitSymbol
  else if w = ⟨480, 480, some 550⟩ then .ok .resetSymbol
  else .error .noSuchSymbol

/-- Formats WC1, WC3, WC7 (R94 to R97): the block emits no other command (R109). -/
def decodeWire (bytes : List Byte) : Except Reject Instr :=
  if bytes = [Config.cmdReadRom] then .ok .readRom
  else if bytes = [Config.cmdSkipRom] then .ok .skipRom
  else if bytes = [Config.cmdWriteChallenge] then .ok .writeChallenge
  else if bytes = Config.cmdReadAuthPage then .ok .readAuthPage
  else if bytes = Config.cmdSoftReset then .ok .softResetTxn
  else .error .noSuchWireCommand

/-- Format UOP (R107): the label, then the operands; what follows the instruction is handed back. -/
def decodeUop : List Byte → Except Reject (Instr × List Byte)
  | [] => .error .noSuchLabel
  | label :: rest =>
    match label.toNat with
    | 0x0 => .ok (.reset, rest)
    | 0x1 => decodeWbit rest
    | 0x2 => .ok (.rbit, rest)
    | 0x3 => decodeDelay rest
    | 0x4 => decodeWbyte rest
    | 0x5 => .ok (.rbyte, rest)
    | 0x6 => decodeWblock rest
    | 0x7 => decodeRblock rest
    | 0x8 => .ok (.crc8Check, rest)
    | 0x9 => decodeCrc16Check rest
    | 0xA => .ok (.sha1, rest)
    | 0xB => .ok (.deriveSecret, rest)
    | 0xC => .ok (.computeMac, rest)
    | 0xD => .ok (.verifyMac, rest)
    | 0xE => .ok (.drawChal, rest)
    | 0xF => .ok (.echoCheck, rest)
    | _ => .error .noSuchLabel

/-- The five rows of the table that have no code, by their number in the table's order (DESIGN CHOICE, log entry 9). -/
def decodeComposite : List Byte → Except Reject (Instr × List Byte)
  | [] => .error .noSuchComposite
  | number :: rest =>
    match number.toNat with
    | 0 => match rest with
      | [] => .error .operandMissing
      | b :: rest => .ok (.crc8Update b, rest)
    | 1 => match rest with
      | [] => .error .operandMissing
      | b :: rest => .ok (.crc16Update b, rest)
    | 2 => .ok (.selectRead, rest)
    | 3 => .ok (.selectSkip, rest)
    | 4 => .ok (.readIdentifier, rest)
    | _ => .error .noSuchComposite

/-- The operation a code stands for. -/
def decode : Code → Except Reject Instr
  | .hc cmd => .ok (decodeHc cmd)
  | .sl wave => decodeSl wave
  | .wire bytes => decodeWire bytes
  | .uop bytes => (decodeUop bytes).map Prod.fst
  | .composite bytes => (decodeComposite bytes).map Prod.fst

/-! ### The encoder -/

/-- The 17-bit operand of `DELAY` as three bytes, low byte first. -/
def delayBytes (n : BitVec 17) : List Byte :=
  [BitVec.ofNat 8 n.toNat, BitVec.ofNat 8 (n.toNat / 256), BitVec.ofNat 8 (n.toNat / 65536)]

/-- The count operand of a block operation as a byte. -/
def countByte (n : BitVec 6) : Byte := BitVec.ofNat 8 n.toNat

/-- The code of an operation. -/
def encode : Instr → Code
  | .reservedHc00 => .hc 0
  | .getIdentifier => .hc 1
  | .authenticate => .hc 2
  | .softReset => .hc 3
  | .wbitOne => .sl ⟨6, 64, none⟩
  | .wbitZero => .sl ⟨60, 10, none⟩
  | .rbitSymbol => .sl ⟨6, 64, some 15⟩
  | .resetSymbol => .sl ⟨480, 480, some 550⟩
  | .readRom => .wire [Config.cmdReadRom]
  | .skipRom => .wire [Config.cmdSkipRom]
  | .writeChallenge => .wire [Config.cmdWriteChallenge]
  | .readAuthPage => .wire Config.cmdReadAuthPage
  | .softResetTxn => .wire Config.cmdSoftReset
  | .reset => .uop [0x0]
  | .wbit b => .uop [0x1, if b then 1 else 0]
  | .rbit => .uop [0x2]
  | .delay n => .uop (0x3 :: delayBytes n)
  | .wbyte v => .uop [0x4, v]
  | .rbyte => .uop [0x5]
  | .wblock (.buf b) n => .uop [0x6, codeOfBuf b, countByte n]
  | .wblock (.const bytes) n => .uop (0x6 :: codeOfConst :: countByte n :: bytes)
  | .rblock b n => .uop [0x7, codeOfBuf b, countByte n]
  | .crc8Check => .uop [0x8]
  | .crc16Check f => .uop [0x9, codeOfFrame f]
  | .sha1 => .uop [0xA]
  | .deriveSecret => .uop [0xB]
  | .computeMac => .uop [0xC]
  | .verifyMac => .uop [0xD]
  | .drawChal => .uop [0xE]
  | .echoCheck => .uop [0xF]
  | .crc8Update b => .composite [0, b]
  | .crc16Update b => .composite [1, b]
  | .selectRead => .composite [2]
  | .selectSkip => .composite [3]
  | .readIdentifier => .composite [4]

/-! ### The words of spec/opcode_table.json -/

/-- The bytes of a number, most significant byte first: the table writes `0xA50000` for the bytes A5 00 00 in the
order they are sent (R96). -/
def bytesMsbFirst : Nat → Nat → List Byte
  | 0, _ => []
  | k + 1, w => BitVec.ofNat 8 (w / 256 ^ k) :: bytesMsbFirst k w

/-- The operand bytes behind a label, all 0 (more than the longest operand of fixed length). -/
def zeroOperands : List Byte := [0, 0, 0, 0, 0, 0, 0, 0]

/-- The code a word of the opcode table stands for. The table's formats HC, UOP and WC1 share values in one byte:
0 to 3 are read as host commands, 0x4 to 0xE as labels, 0xF and above as wire bytes, and a word given as 2 bits or as
4 bits is a host command or a label (DESIGN CHOICE, log entry 10). -/
def codeOfTableWord (nbits w : Nat) : Code :=
  if nbits ≤ 2 then .hc (BitVec.ofNat 2 w)
  else if nbits ≤ 4 then .uop (BitVec.ofNat 8 w :: zeroOperands)
  else if nbits ≤ 8 then
    if w < 4 then .hc (BitVec.ofNat 2 w)
    else if w < 15 then .uop (BitVec.ofNat 8 w :: zeroOperands)
    else .wire [BitVec.ofNat 8 w]
  else .wire (bytesMsbFirst (nbits / 8) w)

/-- The operation the decoder reads from a word of the opcode table. -/
def decodeTableWord (nbits w : Nat) : Option Instr :=
  match decode (codeOfTableWord nbits w) with
  | .ok i => some i
  | .error _ => none

end Sys2Proof
end

