-- ==== Sys2Proof/Machine/State.lean ====
section
/-! DEFINITION. The state of the block as plain data: every register of spec/10_state.md R20 to R45, the trace of
spec/00_scope.md R9, the inputs of the agents outside the block (R5), and the parameters of the implementation (R6).
State.reset is the table of R49. -/

namespace Sys2Proof.Machine

/-! ### Names the spec gives values of -/

/-- A trace event (R9): `L` pulls the line low, `Z` releases it, `S v` samples the level v (true: high, R136), `W n`
waits n microseconds, `C bytes` draws a challenge. -/
inductive Event where
  | L
  | Z
  | S (v : Bool)
  | W (n : Nat)
  | C (bytes : Vector Byte 12)
  deriving DecidableEq, Repr

/-- `STATUS` (R38, R114): its five values; the codes 5 to 7 "never occur". -/
inductive Status where
  | none
  | ok
  | deviceNotPresent
  | integrityError
  | authenticationFailure
  deriving DecidableEq, Repr

/-- `CAUSE` (R39, R114): its six values; the codes 6 and 7 "never occur". -/
inductive Cause where
  | none
  | crc8Id
  | echoMismatch
  | crc16Page
  | crc16Mac
  | crc16Soft
  deriving DecidableEq, Repr

/-- A failure (R265): raised by a gate, a check, or the comparator. -/
inductive Failure where
  | notPresent
  | integrity (cause : Cause)
  | macMismatch
  deriving DecidableEq, Repr

/-- The result code of a transaction or an attempt (R185 (b), R241). -/
inductive TxnResult where
  /-- No transaction has ended since the command began, or since reset. -/
  | none
  | ok
  | failed (f : Failure)
  deriving DecidableEq, Repr

/-- Which output `finish` writes (R250). -/
inductive Output where
  | nothing
  | ident
  | trusted
  deriving DecidableEq, Repr

/-- `SEQ.phase` (R28, R253). `FINISH` carries the arguments of `finish(status, cause) with output` (R250): R253 names
them as the side effect of entering it, and the registers are written on leaving it. -/
inductive Phase where
  | idle
  | idPhase
  | derive
  | authChallenge
  | authPage
  | authVerify
  | soft
  | finish (status : Status) (cause : Cause) (out : Output)
  deriving DecidableEq, Repr

/-- What the outside world does to the block during one step (R36, R240, R300; DESIGN CHOICE, log entries 2 and 8). -/
inductive Input where
  /-- `start` = 0, `rst` = 0. -/
  | quiet
  /-- `start` = 1 with this value on `cmd`. -/
  | start (cmd : BitVec 2)
  /-- `rst` rises this many microseconds after the beginning of the operation the step runs. -/
  | rst (afterUs : Nat)
  /-- An operation of the opcode table presented to the block by its code, to be run whole (DESIGN CHOICE, log entry 8). -/
  | op (code : Code)
  deriving DecidableEq, Repr

/-! ### The registers, grouped as the sections of spec/10_state.md -/

/-- The session registers (R20 to R27). `PAGE` is `rbuf[0..28)`, `MACD` is `mbuf[0..20)`. -/
structure Session where
  ident : Vector Byte 8
  chal : Vector Byte 12
  echo : Vector Byte 12
  rbuf : Vector Byte 31
  mbuf : Vector Byte 22
  secret : Vector Byte 8
  mach : Vector Byte 20
  deriving DecidableEq, Repr

/-- `SEQ`, the sequencer's position (R28, R29). -/
structure Seq where
  cmd : BitVec 2
  phase : Phase
  step : BitVec 6
  att : BitVec 2
  byteCnt : BitVec 6
  bitCnt : BitVec 3
  deriving DecidableEq, Repr

/-- The seven flags (R32). -/
structure Flags where
  present : Bool
  crc8Ok : Bool
  crc16Ok : Bool
  echoOk : Bool
  macOk : Bool
  busy : Bool
  done : Bool
  deriving DecidableEq, Repr

/-- The SHA-1 core's registers (R35). -/
structure ShaRegs where
  msg : Vector Byte 64
  w : Vector Word 80
  a : Word
  b : Word
  c : Word
  d : Word
  e : Word
  h : Vector Word 5
  deriving DecidableEq, Repr

/-- The host-visible outcome registers (R38, R39, R43, R44). -/
structure HostRegs where
  status : Status
  cause : Cause
  idOut : BitVec 64
  trustedOut : BitVec 32
  deriving DecidableEq, Repr

/-- The line side of the block: `LINE_DRV` (R40), `US_TIMER` (R31), the line environment's answers and the trace. -/
structure Line where
  /-- `LINE_DRV`: true pulls the line low. -/
  drv : Bool
  /-- `US_TIMER`. -/
  usTimer : BitVec 17
  /-- An operation of the command has used the line, so that `T_GAP` comes before the next one (R137). -/
  gapDue : Bool
  /-- What the line environment answers to the next samples, first answer first (R5, R12 "script"; DESIGN CHOICE, log entry 5). -/
  script : List Bool
  /-- Samples taken so far: the argument of the free value that answers when the script is used up. -/
  sampleNo : Nat
  /-- Gaps drawn so far: the argument of the free value `Config.freeGap`. -/
  gapNo : Nat
  /-- The trace of R9, newest event first, two waits in a row merged and no wait of 0. -/
  traceRev : List Event
  deriving DecidableEq, Repr

/-- The agents outside the block other than the line (R5): the host and the challenge source. -/
structure Env where
  /-- What the host does in the next steps, one entry a step; `quiet` when the list is used up. -/
  inputs : List Input
  /-- What the challenge source answers next, first answer first (R45; DESIGN CHOICE, log entry 5). -/
  chalScript : List (BitVec 96)
  /-- Challenges drawn so far: the argument of the free value that answers when the script is used up. -/
  chalNo : Nat
  deriving DecidableEq, Repr

/-- The state of the machine. -/
structure State where
  /-- The parameters of the implementation (R6, R47): no step writes them. -/
  cfg : Config.Params
  session : Session
  seq : Seq
  /-- `SHREG` (R30). -/
  shreg : Byte
  flags : Flags
  /-- `CRC8R` (R33). -/
  crc8r : Byte
  /-- `CRC16R` (R34). -/
  crc16r : Half
  sha : ShaRegs
  host : HostRegs
  /-- `chal_req` (R45). -/
  chalReq : Bool
  line : Line
  env : Env
  /-- The value the last `RESET`, `RBIT` or `RBYTE` returned (R131, R133, R151 "return"; DESIGN CHOICE, log entry 7). -/
  ret : Byte
  /-- The result code of the last transaction or attempt (R185; DESIGN CHOICE, log entry 7). -/
  res : TxnResult
  deriving DecidableEq, Repr

/-! ### Stops -/

/-- How the machine stops on something the spec says does not occur. -/
inductive Fault where
  /-- Raised by `WBLOCK` and `RBLOCK` asked for more bytes than the buffer or the sequence has. Such an instruction is
  not well formed and no code decodes to one; "an index outside the register's length does not occur in any rule"
  (R60). Safe: the machine stops where the spec says nothing. -/
  | blockOverrun (length count : Nat)
  /-- Raised by `step` when `SEQ` stands at a step R193 does not list. Safe: the machine stops where the spec says
  nothing; no step leads there from a legal position (Sys2Proof.Safety.Inv). -/
  | noSuchPosition (phase : Phase) (step : BitVec 6)
  deriving DecidableEq, Repr

/-- Why a step has no meaning. -/
inductive Refusal where
  /-- Raised by `exec` for an instruction that has no meaning yet: none is left. Safe. -/
  | notModelled (mnemonic : String)
  /-- Raised by `step` when the code presented to it is no encoding of the spec's tables (R109: the block has no other
  operation). Safe: the machine stops where the spec has no instruction. -/
  | undecodable (reason : Reject)
  deriving DecidableEq, Repr

/-! ### Reset -/

/-- All session registers 0 (R48, R49). -/
def Session.zero : Session where
  ident := Vector.replicate 8 0
  chal := Vector.replicate 12 0
  echo := Vector.replicate 12 0
  rbuf := Vector.replicate 31 0
  mbuf := Vector.replicate 22 0
  secret := Vector.replicate 8 0
  mach := Vector.replicate 20 0

/-- All SHA-1 registers 0 (R48, R49). -/
def ShaRegs.zero : ShaRegs where
  msg := Vector.replicate 64 0
  w := Vector.replicate 80 0
  a := 0
  b := 0
  c := 0
  d := 0
  e := 0
  h := Vector.replicate 5 0

/-- The registers of the block after `rst`, the table of R49, in a block with these parameters. The trace is empty and
nothing is known of the agents outside. -/
def State.resetWith (cfg : Config.Params) : State where
  cfg := cfg
  session := Session.zero
  seq := ⟨0, .idle, 0, 0, 0, 0⟩
  shreg := 0
  flags := ⟨false, false, false, false, false, false, false⟩
  crc8r := 0
  crc16r := 0
  sha := ShaRegs.zero
  host := ⟨.none, .none, 0, 0⟩
  chalReq := false
  line := ⟨false, 0, false, [], 0, 0, []⟩
  env := ⟨[], [], 0⟩
  ret := 0
  res := .none

/-- The machine right after reset (R49, R300): the block as built, its OPEN parameters free. -/
def State.reset : State := State.resetWith Config.built

end Sys2Proof.Machine
end

