-- ==== Sys2Proof/Machine/Operands.lean ====
section
/-! DEFINITION. Operand assembly: bytes of buffers, bits of bytes, frames, message blocks, words and the byte orders
(spec/20_memory.md R60 to R70, spec/30_encoding.md R93, R98 to R106, R111 to R113). -/

namespace Sys2Proof.Machine

/-! ### Bytes of the session buffers (the space `BUF`, R60) -/

/-- Byte k of a byte array, 0 outside it ("does not occur in any rule", R60; DESIGN CHOICE, log entry 17). -/
def byteAt {n : Nat} (v : Vector Byte n) (k : Nat) : Byte := if h : k < n then v[k] else 0

/-- `MemRead(BUF, (buf, k), 1)` (R8, R60). -/
def readBuf (s : State) (buf : Buf) (k : Nat) : Byte :=
  match buf with
  | .ident => byteAt s.session.ident k
  | .chal => byteAt s.session.chal k
  | .echo => byteAt s.session.echo k
  | .rbuf => byteAt s.session.rbuf k
  | .mbuf => byteAt s.session.mbuf k
  | .secret => byteAt s.session.secret k
  | .mach => byteAt s.session.mach k
  | .msg => byteAt s.sha.msg k

/-- `MemWrite(BUF, (buf, k), 1, v)` (R8, R60); a place outside the buffer is not written. -/
def writeBuf (buf : Buf) (k : Nat) (v : Byte) (s : State) : State :=
  match buf with
  | .ident => { s with session := { s.session with ident := s.session.ident.setIfInBounds k v } }
  | .chal => { s with session := { s.session with chal := s.session.chal.setIfInBounds k v } }
  | .echo => { s with session := { s.session with echo := s.session.echo.setIfInBounds k v } }
  | .rbuf => { s with session := { s.session with rbuf := s.session.rbuf.setIfInBounds k v } }
  | .mbuf => { s with session := { s.session with mbuf := s.session.mbuf.setIfInBounds k v } }
  | .secret => { s with session := { s.session with secret := s.session.secret.setIfInBounds k v } }
  | .mach => { s with session := { s.session with mach := s.session.mach.setIfInBounds k v } }
  | .msg => { s with sha := { s.sha with msg := s.sha.msg.setIfInBounds k v } }

/-- Byte k of the operand of `WBLOCK` (R154). -/
def sourceByte (s : State) (src : BlockSource) (k : Nat) : Byte :=
  match src with
  | .buf b => readBuf s b k
  | .const bytes => bytes.getD k 0

/-- `v[k] <- b` for a byte (R104, R151). -/
def setBit (k : Nat) (b : Bool) (v : Byte) : Byte :=
  if b then v ||| (1#8 <<< k) else v &&& ~~~(1#8 <<< k)

/-- A bit as the value an operation returns (R131, R133). -/
def bitValue (b : Bool) : Byte := if b then 1 else 0

/-- The 12 bytes of a value on `chal_in` (R45): byte j is `chal_in[8j+7:8j]`. -/
def challengeBytes (chalIn : BitVec 96) : Vector Byte 12 := Vector.ofFn fun j => chalIn.extractLsb' (8 * j.val) 8

/-! ### Frames (R98 to R102, R173) -/

/-- The byte sequence F that an operand of `CRC16_CHECK` selects: for `page` the three bytes sent and the
`N_PAGE_READ` bytes read, for `mac` the 22 bytes read, for `soft` the seven bytes sent and the two read. -/
def frameBytes (s : State) (f : Frame) : List Byte :=
  match f with
  | .page => Config.cmdReadAuthPage ++ s.session.rbuf.toList.take s.cfg.nPageRead.count.toNat
  | .mac => s.session.mbuf.toList
  | .soft => Config.cmdSoftReset ++ [readBuf s .mbuf 0, readBuf s .mbuf 1]

/-! ### Message blocks (R111, R112) -/

/-- Byte i of the secret-derivation block (R111): the template outside the identifier field, the identifier inside,
the top two bits of its first copied byte cleared (R218). -/
def secretBlockByte (template : Vector Byte 64) (offset : Fin 57) (ident : Vector Byte 8) (i : Nat) : Byte :=
  if i < offset.val ∨ offset.val + 8 ≤ i then byteAt template i
  else if i = offset.val then byteAt ident 0 &&& 0x3F
  else byteAt ident (i - offset.val)

/-- The secret-derivation block. -/
def secretBlock (template : Vector Byte 64) (offset : Fin 57) (ident : Vector Byte 8) : Vector Byte 64 :=
  Vector.ofFn fun i => secretBlockByte template offset ident i.val

/-- The byte one entry of `MAC_LAYOUT` names (R112). -/
def macSourceByte (m : Session) : Config.MacSource → Byte
  | .secret i => m.secret[i]
  | .page i => byteAt m.rbuf i.val
  | .chal i => m.chal[i]
  | .ident i => m.ident[i]
  | .const b => b

/-- The MAC message block. -/
def macBlock (layout : Vector Config.MacSource 64) (m : Session) : Vector Byte 64 :=
  layout.map (macSourceByte m)

/-! ### Words and their bytes (R69, R70, R113) -/

/-- Word t of a message block, big-endian (R69): `MSG[4t] << 24 | MSG[4t+1] << 16 | MSG[4t+2] << 8 | MSG[4t+3]`. -/
def wordBE (msg : Vector Byte 64) (t : Nat) : Word :=
  (byteAt msg (4 * t)).zeroExtend 32 <<< 24 ||| (byteAt msg (4 * t + 1)).zeroExtend 32 <<< 16 |||
    (byteAt msg (4 * t + 2)).zeroExtend 32 <<< 8 ||| (byteAt msg (4 * t + 3)).zeroExtend 32

/-- Byte j of a word, j = 0 the least significant: `w[8j+7:8j]`. -/
def wordByte (w : Word) (j : Nat) : Byte := w.extractLsb' (8 * j) 8

/-- `MACH[4k+j] = H[4-k][8j+7:8j]` (R70, R222). -/
def macByte (h : Vector Word 5) (i : Nat) : Byte := wordByte (h.toList.getD (4 - i / 4) 0) (i % 4)

/-- `macbytes(H)` (R222). -/
def macBytes (h : Vector Word 5) : Vector Byte 20 := Vector.ofFn fun i => macByte h i.val

/-- The bytes of one word as R219 streams them: the low half low byte first, then the high half low byte first. -/
def halvesStream (w : Word) : List Byte :=
  let lo := w.extractLsb' 0 16
  let hi := w.extractLsb' 16 16
  [lo.extractLsb' 0 8, lo.extractLsb' 8 8, hi.extractLsb' 0 8, hi.extractLsb' 8 8]

/-- The 20-byte stream of R219: "the 5 output words in reverse order". -/
def hashStream (h : Vector Word 5) : List Byte := h.toList.reverse.flatMap halvesStream

/-- `extract(H)` (R219): the bytes of the stream at the places the parameter names; by default the first 8. -/
def extractSecret (how : Config.SecretExtract) (h : Vector Word 5) : Vector Byte 8 :=
  match how with
  | .stream places => places.map fun p => (hashStream h).getD p.val 0
  | .other => Config.secretExtractOther h

/-- Bytes as a number, the first byte least significant: `X[j] = v[8j+7:8j]` (R43, R44). -/
def leValue (bytes : List Byte) : Nat := bytes.foldr (fun b acc => b.toNat + 256 * acc) 0

/-- What `ID_OUT` holds for an identifier (R43). -/
def packIdent (ident : Vector Byte 8) : BitVec 64 := BitVec.ofNat 64 (leValue ident.toList)

/-- What `TRUSTED_OUT` holds for a page: `PAGE[0..4)` (R44, R224). -/
def packTrusted (rbuf : Vector Byte 31) : BitVec 32 := BitVec.ofNat 32 (leValue (rbuf.toList.take 4))

end Sys2Proof.Machine
end

