-- ==== Sys2Proof/Machine/Flags.lean ====
section
/-! DEFINITION. The conditions the one-bit flags record (spec/10_state.md R32) and how they are cleared. -/

namespace Sys2Proof.Machine

/-- `PRESENT`: 1 when the presence sample was 0 (R131). -/
def presentOf (p : Bool) : Bool := !p

/-- `CRC8_OK`: 1 when CRC8(`ID`) = 0 (R169). -/
def crc8OkOf (crc : Byte) : Bool := decide (crc = 0)

/-- `CRC16_OK`: 1 when CRC16(frame) is the residual (R173). -/
def crc16OkOf (crc : Half) : Bool := decide (crc = Config.crc16Residual)

/-- `ECHO_OK`: 1 when `ECHO` = `CHAL` in all 12 bytes (R190). -/
def echoOkOf (m : Session) : Bool :=
  (List.range 12).all fun j => decide (byteAt m.echo j = byteAt m.chal j)

/-- `MAC_OK`: 1 when `MACH` = `MACD` in all 20 bytes, `MACD` = `MBUF[0..20)` (R223). -/
def macOkOf (m : Session) : Bool :=
  (List.range 20).all fun j => decide (byteAt m.mach j = byteAt m.mbuf j)

/-- The five internal flags cleared, `BUSY` and `DONE` kept (R48). -/
def clearInternalFlags (f : Flags) : Flags :=
  { f with present := false, crc8Ok := false, crc16Ok := false, echoOk := false, macOk := false }

end Sys2Proof.Machine
end

