-- ==== Sys2Proof/Machine/Ops.lean ====
section
/-! DEFINITION. The named operations the meanings are built from: the trace, the line capability and the timed wait
(spec/00_scope.md R8, R9; spec/10_state.md R31, R40 to R42), the challenge source (R45), results and failures
(spec/60_exceptions.md R265, R276), command acceptance and finishing (spec/45_sequencer.md R240, R250). -/

namespace Sys2Proof.Machine

/-! ### The trace (R9), newest event first -/

/-- Appends `W(n)`: two waits in a row are one, and `W(0)` is no event. -/
def pushWait (n : Nat) (tr : List Event) : List Event :=
  if n = 0 then tr
  else match tr with
    | .W m :: rest => .W (m + n) :: rest
    | _ => .W n :: tr

/-- Appends any event. -/
def pushEvent (e : Event) (tr : List Event) : List Event :=
  match e with
  | .W n => pushWait n tr
  | e => e :: tr

/-- The trace in the order of time (R9). -/
def traceOf (s : State) : List Event := s.line.traceRev.reverse

/-- The microseconds of a trace: the sum of its waits (R9, R315). -/
def duration (tr : List Event) : Nat :=
  tr.foldr (fun e acc => match e with | .W n => n + acc | _ => acc) 0

/-- The clock cycles of a trace in an implementation: the microseconds times `CLK_PER_US` (R130 (e), R315). -/
def clockCycles (p : Config.Params) (tr : List Event) : Nat := duration tr * p.clkPerUs

/-! ### The line driver capability (R8, R42) and `wait_us` (R31) -/

/-- `pull_low()`. -/
def pullLow (l : Line) : Line := { l with drv := true, traceRev := .L :: l.traceRev }

/-- `release()`. -/
def release (l : Line) : Line := { l with drv := false, traceRev := .Z :: l.traceRev }

/-- `line_in` at the next sample (R41): what the line environment answers, an oracle (R5, U9, U10). -/
def lineLevel (l : Line) : Bool :=
  match l.script with
  | v :: _ => v
  | [] => Config.freeLevel l.sampleNo

/-- `sample()`: takes the level and appends `S(v)`. -/
def sample (l : Line) : Line :=
  { l with script := l.script.tail, sampleNo := l.sampleNo + 1, traceRev := .S (lineLevel l) :: l.traceRev }

/-- `wait_us(n)` loads `US_TIMER` with n (R31). -/
def loadTimer (n : Nat) (l : Line) : Line := { l with usTimer := BitVec.ofNat 17 n }

/-- `US_TIMER` counts down once per microsecond, "the wait ends at 0" (R31; DESIGN CHOICE: the values between are in no
state, log entry 11). -/
def runTimer (l : Line) : Line := { l with usTimer := 0 }

/-- `wait_us(n)`: exactly n microseconds, the line drive unchanged; appends `W(n)` (R8). -/
def waitUs (n : Nat) (l : Line) : Line :=
  let done := runTimer (loadTimer n l)
  { done with traceRev := pushWait n done.traceRev }

/-- The idle time of the next gap (R137, U8). -/
def gapLength (g : Config.Gap) (l : Line) : Nat :=
  match g with
  | .fixed us => us
  | .drawn => Config.freeGap l.gapNo

/-- A drawn gap is drawn once. -/
def countGap (g : Config.Gap) (l : Line) : Line :=
  match g with
  | .fixed _ => l
  | .drawn => { l with gapNo := l.gapNo + 1 }

/-- `T_GAP` between two operations of one command that use the line, with the line released (R137; DESIGN CHOICE: which
operations, log entry 6). -/
def gap (g : Config.Gap) (l : Line) : Line :=
  if l.gapDue then waitUs (gapLength g l) (countGap g l) else l

/-- An operation on the line has ended: the next one of this command comes after a gap. -/
def lineOpDone (l : Line) : Line := { l with gapDue := true }

/-! ### The challenge source (R45, R252) -/

/-- `chal_in` at the next request (R45): what the challenge source answers, an oracle (R5, U11). -/
def chalIn (s : State) : BitVec 96 :=
  match s.env.chalScript with
  | c :: _ => c
  | [] => Config.freeChallenge s.env.chalNo

/-- The 12 bytes the next draw takes (R45). -/
def challengeAnswer (s : State) : Vector Byte 12 := challengeBytes (chalIn s)

/-- `draw_challenge()`: `chal_req` rises, `chal_in` is taken into `CHAL`, and one cycle later `chal_req` has fallen
again; appends `C(bytes)` (R8, R45; DESIGN CHOICE: the cycle in which it stands is in no state, log entry 11). -/
def drawChallenge (s : State) : State :=
  let asked := { s with chalReq := true }
  let taken : State :=
    { asked with
      session := { asked.session with chal := challengeAnswer asked }
      env := { asked.env with chalScript := asked.env.chalScript.tail, chalNo := asked.env.chalNo + 1 }
      line := { asked.line with traceRev := .C (challengeAnswer asked) :: asked.line.traceRev } }
  { taken with chalReq := false }

/-! ### Results of a transaction or an attempt (R185, R241) -/

/-- `raise <Failure>` inside a transaction: it ends with this result code (R8, R185 (b)). -/
def raiseFailure (f : Failure) (s : State) : State := { s with res := .failed f }

/-- The transaction or attempt ends with `ok`. -/
def succeed (s : State) : State := { s with res := .ok }

/-- The next part of a sequence: "a failed check ends the composite at that point" (R116). -/
def thenOk (f : State → State) (s : State) : State :=
  match s.res with
  | .ok => f s
  | .none => s
  | .failed _ => s

/-- The check after an operation: goes on when the flag is 1, raises the failure when it is 0 (R265). -/
def require (flag : State → Bool) (f : Failure) (s : State) : State :=
  if flag s then s else raiseFailure f s

/-! ### The sequencer's position -/

/-- `seq <- target`: the first step of a phase. -/
def goTo (p : Phase) (s : State) : State := { s with seq := { s.seq with phase := p, step := 0 } }

/-- The counter of attempts (R29). -/
def setAtt (n : BitVec 2) (s : State) : State := { s with seq := { s.seq with att := n } }

/-! ### Accepting a command and finishing it -/

/-- The first phase of a command (R253). -/
def firstPhase (cmd : BitVec 2) : Phase :=
  match cmd.toNat with
  | 1 => .idPhase
  | 2 => .idPhase
  | 3 => .soft
  | _ => .idle

/-- `accept(cmd)` (R240, R48, R253): the outcome registers, the session, the internal flags, the checksum and hash
registers and the trace are cleared, `BUSY` rises, `DONE` falls, and the first attempt of the first phase begins. DEDUCED
from R28 and R320: the shift register and the byte and bit counters are cleared too, log entry 25. -/
def accept (cmd : BitVec 2) (s : State) : State :=
  { s with
    seq := { cmd := cmd, phase := firstPhase cmd, step := 0, att := 1, byteCnt := 0, bitCnt := 0 }
    shreg := 0
    flags := { clearInternalFlags s.flags with busy := true, done := false }
    host := ⟨.none, .none, 0, 0⟩
    session := Session.zero
    crc8r := 0
    crc16r := 0
    sha := ShaRegs.zero
    line := { s.line with traceRev := [], gapDue := false }
    res := .none }

/-- The output registers at the end of a command (R43, R44, R250). -/
def writeOutput (out : Output) (m : Session) (h : HostRegs) : HostRegs :=
  match out with
  | .nothing => h
  | .ident => { h with idOut := packIdent m.ident }
  | .trusted => { h with trustedOut := packTrusted m.rbuf }

/-- `finish(status, cause) with output` (R250, R48): the way back to `IDLE` after a success and after a failure alike
(R278). DEDUCED: the internal flags fall too, and what R48 does not name stays, log entry 15. -/
def finish (st : Status) (c : Cause) (out : Output) (s : State) : State :=
  { s with
    host := { writeOutput out s.session s.host with status := st, cause := c }
    session := Session.zero
    sha := ShaRegs.zero
    seq := { s.seq with cmd := 0, phase := .idle, step := 0 }
    flags := { clearInternalFlags s.flags with busy := false, done := true }
    res := .none }

/-! ### Taking a failure (R265 to R276) -/

/-- The `STATUS` a failure ends a command with (R266). -/
def failureStatus : Failure → Status
  | .notPresent => .deviceNotPresent
  | .integrity _ => .integrityError
  | .macMismatch => .authenticationFailure

/-- The `CAUSE` a failure ends a command with (R266). -/
def failureCause : Failure → Cause
  | .notPresent => .none
  | .integrity c => c
  | .macMismatch => .none

/-- Whether a failure may lead to another attempt (R241, R247, R248, R266 "retried"). -/
def retryable (p : Config.Params) : Failure → Bool
  | .notPresent => p.presenceRetry
  | .integrity _ => true
  | .macMismatch => false

/-- An authentication attempt begins: `DRAW_CHAL`, then step 0 of the challenge transaction (R246, R253). -/
def beginAuthAttempt (att : BitVec 2) (s : State) : State := goTo .authChallenge (drawChallenge (setAtt att s))

/-- The next attempt of the retried unit the sequencer is in: "`ATT` is incremented; the sequencer goes to step 0 of
the unit's first transaction" (R276), with a fresh challenge in the authentication loop (R246, R253). -/
def restartUnit (s : State) : State :=
  match s.seq.phase with
  | .idPhase => goTo .idPhase (setAtt (s.seq.att + 1) s)
  | .soft => goTo .soft (setAtt (s.seq.att + 1) s)
  | .authChallenge => beginAuthAttempt (s.seq.att + 1) s
  | .authPage => beginAuthAttempt (s.seq.att + 1) s
  | .authVerify => beginAuthAttempt (s.seq.att + 1) s
  | .idle => s
  | .derive => s
  | .finish _ _ _ => s

/-- TAKING A FAILURE, the block's exception entry (R276): a retryable failure with attempts left starts the next
attempt; any other goes to `FINISH` with the failure's `STATUS` and `CAUSE` and no output. -/
def takeFailure (f : Failure) (s : State) : State :=
  if retryable s.cfg f && decide (s.seq.att.toNat < Config.nAttempts) then restartUnit s
  else goTo (.finish (failureStatus f) (failureCause f) .nothing) s

end Sys2Proof.Machine
end

