-- ==== Sys2Proof/Machine/Transport.lean ====
section
/-! DEFINITION. Bit transport (spec/40_bit_transport.md R130 to R137): `RESET`, `WBIT`, `RBIT`, `DELAY`, and the four
line symbols of spec/30_encoding.md R92, which are the same waveforms. None of them can fail (R130 (d)). -/

namespace Sys2Proof.Machine

/-! ### The waveforms on the line -/

/-- `RESET` up to the sample: low for `T_RST_LOW`, released for `T_RST_WAIT` (R131). -/
def resetToSample (g : Config.Gap) (l : Line) : Line :=
  waitUs Config.tRstWait (release (waitUs Config.tRstLow (pullLow (gap g l))))

/-- `RESET` (R131): the sample, then the recovery of `T_RST_REC`. -/
def resetLine (g : Config.Gap) (l : Line) : Line :=
  lineOpDone (waitUs Config.tRstRec (sample (resetToSample g l)))

/-- The presence value p of a `RESET` (R131). -/
def resetLevel (g : Config.Gap) (l : Line) : Bool := lineLevel (resetToSample g l)

/-- `WBIT b` (R132). -/
def wbitLine (g : Config.Gap) (b : Bool) (l : Line) : Line :=
  lineOpDone <|
    if b then waitUs Config.tW1Rec (release (waitUs Config.tW1Low (pullLow (gap g l))))
    else waitUs Config.tW0Rec (release (waitUs Config.tW0Low (pullLow (gap g l))))

/-- `RBIT` up to the sample: low for `T_RD_LOW`, released for `T_RD_WAIT` (R133). -/
def rbitToSample (g : Config.Gap) (l : Line) : Line :=
  waitUs Config.tRdWait (release (waitUs Config.tRdLow (pullLow (gap g l))))

/-- `RBIT` (R133): the sample, then the rest of the slot. -/
def rbitLine (g : Config.Gap) (l : Line) : Line :=
  lineOpDone (waitUs Config.tRdRec (sample (rbitToSample g l)))

/-- The value v of an `RBIT` (R133, R136). -/
def rbitLevel (g : Config.Gap) (l : Line) : Bool := lineLevel (rbitToSample g l)

/-- `DELAY n` (R134): the line stays released. -/
def delayLine (g : Config.Gap) (n : BitVec 17) (l : Line) : Line := lineOpDone (waitUs n.toNat (gap g l))

/-! ### The operations on the state -/

/-- `RESET` (R131): sets `PRESENT` and returns p. -/
def doReset (s : State) : State :=
  { s with
    line := resetLine s.cfg.tGap s.line
    flags := { s.flags with present := presentOf (resetLevel s.cfg.tGap s.line) }
    ret := bitValue (resetLevel s.cfg.tGap s.line) }

/-- `WBIT b` (R132). -/
def doWbit (b : Bool) (s : State) : State := { s with line := wbitLine s.cfg.tGap b s.line }

/-- `RBIT` (R133): returns v. -/
def doRbit (s : State) : State :=
  { s with line := rbitLine s.cfg.tGap s.line, ret := bitValue (rbitLevel s.cfg.tGap s.line) }

/-- `DELAY n` (R134). -/
def doDelay (n : BitVec 17) (s : State) : State := { s with line := delayLine s.cfg.tGap n s.line }

/-! ### The meanings -/

/-- Micro-operation `RESET` (R131). -/
def execReset (s : State) : Host.Outcome State Fault Refusal := .next (doReset s)

/-- Micro-operation `WBIT b` (R132). -/
def execWbit (b : Bool) (s : State) : Host.Outcome State Fault Refusal := .next (doWbit b s)

/-- Micro-operation `RBIT` (R133). -/
def execRbit (s : State) : Host.Outcome State Fault Refusal := .next (doRbit s)

/-- Micro-operation `DELAY n` (R134). -/
def execDelay (n : BitVec 17) (s : State) : Host.Outcome State Fault Refusal := .next (doDelay n s)

/-- Line symbol `WBIT 1` (R92, R132). -/
def execWbitOne (s : State) : Host.Outcome State Fault Refusal := .next (doWbit true s)

/-- Line symbol `WBIT 0` (R92, R132). -/
def execWbitZero (s : State) : Host.Outcome State Fault Refusal := .next (doWbit false s)

/-- Line symbol `RBIT` (R92, R133). -/
def execRbitSymbol (s : State) : Host.Outcome State Fault Refusal := .next (doRbit s)

/-- Line symbol `RESET` (R92, R131). -/
def execResetSymbol (s : State) : Host.Outcome State Fault Refusal := .next (doReset s)

end Sys2Proof.Machine
end

