-- ==== Sys2Proof/Machine/Codec.lean ====
section
/-! DEFINITION. Byte and block codec (spec/41_byte_block_codec.md R150 to R155): `RBYTE`, `WBYTE`, `RBLOCK`, `WBLOCK`.
Least significant bit first, ascending index (spec/20_memory.md R66, R67); no flag, no failure, no retry. -/

namespace Sys2Proof.Machine

/-- One round of `RBYTE` (R151): `BIT_CNT` is k, an `RBIT` is made and its value goes to `SHREG[k]`. -/
def readBitInto (s : State) (k : Nat) : State :=
  let read := doRbit { s with seq := { s.seq with bitCnt := BitVec.ofNat 3 k } }
  { read with shreg := setBit k (rbitLevel s.cfg.tGap s.line) read.shreg }

/-- `RBYTE` (R151): returns `SHREG`. -/
def doRbyte (s : State) : State :=
  let read := (List.range 8).foldl readBitInto { s with shreg := 0 }
  { read with ret := read.shreg }

/-- One round of `WBYTE` (R152): `BIT_CNT` is k and `SHREG[k]` is sent. -/
def writeBitOf (s : State) (k : Nat) : State :=
  doWbit (s.shreg.getLsbD k) { s with seq := { s.seq with bitCnt := BitVec.ofNat 3 k } }

/-- `WBYTE v` (R152). -/
def doWbyte (v : Byte) (s : State) : State := (List.range 8).foldl writeBitOf { s with shreg := v }

/-- One round of `RBLOCK` (R153): `BYTE_CNT` is k and `buf[k]` takes an `RBYTE`. -/
def readByteInto (buf : Buf) (s : State) (k : Nat) : State :=
  let read := doRbyte { s with seq := { s.seq with byteCnt := BitVec.ofNat 6 k } }
  writeBuf buf k read.shreg read

/-- `RBLOCK buf, n` (R153). -/
def doRblock (buf : Buf) (n : Nat) (s : State) : State := (List.range n).foldl (readByteInto buf) s

/-- One round of `WBLOCK` (R154): `BYTE_CNT` is k and byte k is sent. -/
def writeByteOf (src : BlockSource) (s : State) (k : Nat) : State :=
  doWbyte (sourceByte s src k) { s with seq := { s.seq with byteCnt := BitVec.ofNat 6 k } }

/-- `WBLOCK buf, n` (R154). -/
def doWblock (src : BlockSource) (n : Nat) (s : State) : State := (List.range n).foldl (writeByteOf src) s

/-! ### The meanings -/

/-- Micro-operation `WBYTE v` (R152). -/
def execWbyte (v : Byte) (s : State) : Host.Outcome State Fault Refusal := .next (doWbyte v s)

/-- Micro-operation `RBYTE` (R151). -/
def execRbyte (s : State) : Host.Outcome State Fault Refusal := .next (doRbyte s)

/-- Micro-operation `WBLOCK buf, n` (R154): "a session buffer or a constant byte sequence" of at least n bytes. -/
def execWblock (src : BlockSource) (n : BitVec 6) (s : State) : Host.Outcome State Fault Refusal :=
  if n.toNat ≤ src.length then .next (doWblock src n.toNat s) else .fault (.blockOverrun src.length n.toNat)

/-- Micro-operation `RBLOCK buf, n` (R153): "a session buffer of at least n bytes". -/
def execRblock (buf : Buf) (n : BitVec 6) (s : State) : Host.Outcome State Fault Refusal :=
  if n.toNat ≤ buf.length then .next (doRblock buf n.toNat s) else .fault (.blockOverrun buf.length n.toNat)

/-- Wire command `READ_ROM` (R94, R187): the byte 0x33 on the line (DEDUCED, log entry 16). -/
def execReadRom (s : State) : Host.Outcome State Fault Refusal := .next (doWbyte Config.cmdReadRom s)

/-- Wire command `SKIP_ROM` (R94, R188): the byte 0xCC on the line (DEDUCED, log entry 16). -/
def execSkipRom (s : State) : Host.Outcome State Fault Refusal := .next (doWbyte Config.cmdSkipRom s)

end Sys2Proof.Machine
end

