-- ==== Sys2Proof/Machine/Integrity.lean ====
section
/-! DEFINITION. Integrity layer (spec/42_integrity.md R165 to R176): the constant tables `T8` and `T16` as listed in
R167 and R171, the byte-at-a-time updates, and the two checks. Pure computations: nothing on the line, nothing in the
trace, no failure of their own (R165). -/

namespace Sys2Proof.Machine

/-! ### The ROM tables (spec/20_memory.md R60 to R62) -/

/-- `T8[16r + c]`, rows 0 to 7 of the listing of R167. -/
def t8Low : List Byte :=
  [0x00, 0x5E, 0xBC, 0xE2, 0x61, 0x3F, 0xDD, 0x83, 0xC2, 0x9C, 0x7E, 0x20, 0xA3, 0xFD, 0x1F, 0x41] ++
  [0x9D, 0xC3, 0x21, 0x7F, 0xFC, 0xA2, 0x40, 0x1E, 0x5F, 0x01, 0xE3, 0xBD, 0x3E, 0x60, 0x82, 0xDC] ++
  [0x23, 0x7D, 0x9F, 0xC1, 0x42, 0x1C, 0xFE, 0xA0, 0xE1, 0xBF, 0x5D, 0x03, 0x80, 0xDE, 0x3C, 0x62] ++
  [0xBE, 0xE0, 0x02, 0x5C, 0xDF, 0x81, 0x63, 0x3D, 0x7C, 0x22, 0xC0, 0x9E, 0x1D, 0x43, 0xA1, 0xFF] ++
  [0x46, 0x18, 0xFA, 0xA4, 0x27, 0x79, 0x9B, 0xC5, 0x84, 0xDA, 0x38, 0x66, 0xE5, 0xBB, 0x59, 0x07] ++
  [0xDB, 0x85, 0x67, 0x39, 0xBA, 0xE4, 0x06, 0x58, 0x19, 0x47, 0xA5, 0xFB, 0x78, 0x26, 0xC4, 0x9A] ++
  [0x65, 0x3B, 0xD9, 0x87, 0x04, 0x5A, 0xB8, 0xE6, 0xA7, 0xF9, 0x1B, 0x45, 0xC6, 0x98, 0x7A, 0x24] ++
  [0xF8, 0xA6, 0x44, 0x1A, 0x99, 0xC7, 0x25, 0x7B, 0x3A, 0x64, 0x86, 0xD8, 0x5B, 0x05, 0xE7, 0xB9]

/-- `T8[16r + c]`, rows 8 to F of the listing of R167. -/
def t8High : List Byte :=
  [0x8C, 0xD2, 0x30, 0x6E, 0xED, 0xB3, 0x51, 0x0F, 0x4E, 0x10, 0xF2, 0xAC, 0x2F, 0x71, 0x93, 0xCD] ++
  [0x11, 0x4F, 0xAD, 0xF3, 0x70, 0x2E, 0xCC, 0x92, 0xD3, 0x8D, 0x6F, 0x31, 0xB2, 0xEC, 0x0E, 0x50] ++
  [0xAF, 0xF1, 0x13, 0x4D, 0xCE, 0x90, 0x72, 0x2C, 0x6D, 0x33, 0xD1, 0x8F, 0x0C, 0x52, 0xB0, 0xEE] ++
  [0x32, 0x6C, 0x8E, 0xD0, 0x53, 0x0D, 0xEF, 0xB1, 0xF0, 0xAE, 0x4C, 0x12, 0x91, 0xCF, 0x2D, 0x73] ++
  [0xCA, 0x94, 0x76, 0x28, 0xAB, 0xF5, 0x17, 0x49, 0x08, 0x56, 0xB4, 0xEA, 0x69, 0x37, 0xD5, 0x8B] ++
  [0x57, 0x09, 0xEB, 0xB5, 0x36, 0x68, 0x8A, 0xD4, 0x95, 0xCB, 0x29, 0x77, 0xF4, 0xAA, 0x48, 0x16] ++
  [0xE9, 0xB7, 0x55, 0x0B, 0x88, 0xD6, 0x34, 0x6A, 0x2B, 0x75, 0x97, 0xC9, 0x4A, 0x14, 0xF6, 0xA8] ++
  [0x74, 0x2A, 0xC8, 0x96, 0x15, 0x4B, 0xA9, 0xF7, 0xB6, 0xE8, 0x0A, 0x54, 0xD7, 0x89, 0x6B, 0x35]

/-- `T16[8r + c]`, eight rows from row 00 of the listing of R171. -/
def t16Rows00 : List Half :=
  [0x0000, 0xC0C1, 0xC181, 0x0140, 0xC301, 0x03C0, 0x0280, 0xC241] ++
  [0xC601, 0x06C0, 0x0780, 0xC741, 0x0500, 0xC5C1, 0xC481, 0x0440] ++
  [0xCC01, 0x0CC0, 0x0D80, 0xCD41, 0x0F00, 0xCFC1, 0xCE81, 0x0E40] ++
  [0x0A00, 0xCAC1, 0xCB81, 0x0B40, 0xC901, 0x09C0, 0x0880, 0xC841] ++
  [0xD801, 0x18C0, 0x1980, 0xD941, 0x1B00, 0xDBC1, 0xDA81, 0x1A40] ++
  [0x1E00, 0xDEC1, 0xDF81, 0x1F40, 0xDD01, 0x1DC0, 0x1C80, 0xDC41] ++
  [0x1400, 0xD4C1, 0xD581, 0x1540, 0xD701, 0x17C0, 0x1680, 0xD641] ++
  [0xD201, 0x12C0, 0x1380, 0xD341, 0x1100, 0xD1C1, 0xD081, 0x1040]

/-- `T16[8r + c]`, eight rows from row 40 of the listing of R171. -/
def t16Rows40 : List Half :=
  [0xF001, 0x30C0, 0x3180, 0xF141, 0x3300, 0xF3C1, 0xF281, 0x3240] ++
  [0x3600, 0xF6C1, 0xF781, 0x3740, 0xF501, 0x35C0, 0x3480, 0xF441] ++
  [0x3C00, 0xFCC1, 0xFD81, 0x3D40, 0xFF01, 0x3FC0, 0x3E80, 0xFE41] ++
  [0xFA01, 0x3AC0, 0x3B80, 0xFB41, 0x3900, 0xF9C1, 0xF881, 0x3840] ++
  [0x2800, 0xE8C1, 0xE981, 0x2940, 0xEB01, 0x2BC0, 0x2A80, 0xEA41] ++
  [0xEE01, 0x2EC0, 0x2F80, 0xEF41, 0x2D00, 0xEDC1, 0xEC81, 0x2C40] ++
  [0xE401, 0x24C0, 0x2580, 0xE541, 0x2700, 0xE7C1, 0xE681, 0x2640] ++
  [0x2200, 0xE2C1, 0xE381, 0x2340, 0xE101, 0x21C0, 0x2080, 0xE041]

/-- `T16[8r + c]`, eight rows from row 80 of the listing of R171. -/
def t16Rows80 : List Half :=
  [0xA001, 0x60C0, 0x6180, 0xA141, 0x6300, 0xA3C1, 0xA281, 0x6240] ++
  [0x6600, 0xA6C1, 0xA781, 0x6740, 0xA501, 0x65C0, 0x6480, 0xA441] ++
  [0x6C00, 0xACC1, 0xAD81, 0x6D40, 0xAF01, 0x6FC0, 0x6E80, 0xAE41] ++
  [0xAA01, 0x6AC0, 0x6B80, 0xAB41, 0x6900, 0xA9C1, 0xA881, 0x6840] ++
  [0x7800, 0xB8C1, 0xB981, 0x7940, 0xBB01, 0x7BC0, 0x7A80, 0xBA41] ++
  [0xBE01, 0x7EC0, 0x7F80, 0xBF41, 0x7D00, 0xBDC1, 0xBC81, 0x7C40] ++
  [0xB401, 0x74C0, 0x7580, 0xB541, 0x7700, 0xB7C1, 0xB681, 0x7640] ++
  [0x7200, 0xB2C1, 0xB381, 0x7340, 0xB101, 0x71C0, 0x7080, 0xB041]

/-- `T16[8r + c]`, eight rows from row C0 of the listing of R171. -/
def t16RowsC0 : List Half :=
  [0x5000, 0x90C1, 0x9181, 0x5140, 0x9301, 0x53C0, 0x5280, 0x9241] ++
  [0x9601, 0x56C0, 0x5780, 0x9741, 0x5500, 0x95C1, 0x9481, 0x5440] ++
  [0x9C01, 0x5CC0, 0x5D80, 0x9D41, 0x5F00, 0x9FC1, 0x9E81, 0x5E40] ++
  [0x5A00, 0x9AC1, 0x9B81, 0x5B40, 0x9901, 0x59C0, 0x5880, 0x9841] ++
  [0x8801, 0x48C0, 0x4980, 0x8941, 0x4B00, 0x8BC1, 0x8A81, 0x4A40] ++
  [0x4E00, 0x8EC1, 0x8F81, 0x4F40, 0x8D01, 0x4DC0, 0x4C80, 0x8C41] ++
  [0x4400, 0x84C1, 0x8581, 0x4540, 0x8701, 0x47C0, 0x4680, 0x8641] ++
  [0x8201, 0x42C0, 0x4380, 0x8341, 0x4100, 0x81C1, 0x8081, 0x4040]

/-- `MemRead(T8, i, 1)` (R60, R61). -/
def t8 (i : Byte) : Byte :=
  if i.toNat < 128 then t8Low.getD i.toNat 0 else t8High.getD (i.toNat - 128) 0

/-- `MemRead(T16, i, 1)`: one 16-bit entry (R60, R62). -/
def t16 (i : Byte) : Half :=
  if i.toNat < 64 then t16Rows00.getD i.toNat 0
  else if i.toNat < 128 then t16Rows40.getD (i.toNat - 64) 0
  else if i.toNat < 192 then t16Rows80.getD (i.toNat - 128) 0
  else t16RowsC0.getD (i.toNat - 192) 0

/-! ### The definitions by bits (R166, R170), beside which the tables are to be held -/

/-- One of the eight shift steps of CRC8 (R166). -/
def crc8Shift (c : Byte) : Byte := if c.getLsbD 0 then (c >>> 1) ^^^ 0x8C else c >>> 1

/-- `crc8(d)` of R166, from the register value c. -/
def crc8Bits (c : Byte) (d : List Byte) : Byte :=
  d.foldl (fun c b => (List.range 8).foldl (fun c _ => crc8Shift c) (c ^^^ b)) c

/-- One of the eight shift steps of CRC16 (R170). -/
def crc16Shift (c : Half) : Half := if c.getLsbD 0 then (c >>> 1) ^^^ 0xA001 else c >>> 1

/-- `crc16(d)` of R170, from the register value c. -/
def crc16Bits (c : Half) (d : List Byte) : Half :=
  d.foldl (fun c b => (List.range 8).foldl (fun c _ => crc16Shift c) (c ^^^ b.zeroExtend 16)) c

/-! ### The updates by table (R168, R172) -/

/-- `T8[CRC8R ^ byte]` (R168). -/
def crc8Next (c b : Byte) : Byte := t8 (c ^^^ b)

/-- `(CRC16R >> 8) ^ T16[(CRC16R ^ zext_16(byte))[7:0]]` (R172). -/
def crc16Next (c : Half) (b : Byte) : Half := (c >>> 8) ^^^ t16 ((c ^^^ b.zeroExtend 16).extractLsb' 0 8)

/-- `CRC8_UPDATE byte` (R168). -/
def doCrc8Update (s : State) (b : Byte) : State := { s with crc8r := crc8Next s.crc8r b }

/-- `CRC16_UPDATE byte` (R172). -/
def doCrc16Update (s : State) (b : Byte) : State := { s with crc16r := crc16Next s.crc16r b }

/-! ### The checks (R169, R173) -/

/-- `CRC8_CHECK` (R169): always over `ID`. -/
def doCrc8Check (s : State) : State :=
  let run := s.session.ident.toList.foldl doCrc8Update { s with crc8r := 0 }
  { run with flags := { run.flags with crc8Ok := crc8OkOf run.crc8r } }

/-- `CRC16_CHECK frame` (R173). -/
def doCrc16Check (f : Frame) (s : State) : State :=
  let run := (frameBytes s f).foldl doCrc16Update { s with crc16r := 0 }
  { run with flags := { run.flags with crc16Ok := crc16OkOf run.crc16r } }

/-! ### The meanings -/

/-- `CRC8_UPDATE byte` (R168). -/
def execCrc8Update (b : Byte) (s : State) : Host.Outcome State Fault Refusal := .next (doCrc8Update s b)

/-- `CRC16_UPDATE byte` (R172). -/
def execCrc16Update (b : Byte) (s : State) : Host.Outcome State Fault Refusal := .next (doCrc16Update s b)

/-- Micro-operation `CRC8_CHECK` (R169). -/
def execCrc8Check (s : State) : Host.Outcome State Fault Refusal := .next (doCrc8Check s)

/-- Micro-operation `CRC16_CHECK frame` (R173). -/
def execCrc16Check (f : Frame) (s : State) : Host.Outcome State Fault Refusal := .next (doCrc16Check f s)

end Sys2Proof.Machine
end

