-- ==== Sys2Proof/Machine/Authentication.lean ====
section
/-! DEFINITION. Authentication engine (spec/44_authentication.md R210 to R224): the one-block SHA-1 core, secret
derivation, MAC computation and the comparator. Pure computations on the session registers (R210). -/

namespace Sys2Proof.Machine

/-! ### The SHA-1 core (R211 to R216) -/

/-- `rotl_n(x)` (R7): `x << n | x >> (32-n)` cut to 32 bits. -/
def rotl (n : Nat) (x : Word) : Word := x <<< n ||| x >>> (32 - n)

/-- The 16 input words (R211). -/
def inputWords (msg : Vector Byte 64) : List Word := (List.range 16).map (wordBE msg)

/-- The next word of the schedule from the words so far, newest first (R211):
`rotl_1(W[t-3] ^ W[t-8] ^ W[t-14] ^ W[t-16])`. -/
def nextWord (newestFirst : List Word) : Word :=
  rotl 1 (newestFirst.getD 2 0 ^^^ newestFirst.getD 7 0 ^^^ newestFirst.getD 13 0 ^^^ newestFirst.getD 15 0)

/-- k more words of the schedule, newest first. -/
def expandSchedule : Nat → List Word → List Word
  | 0, ws => ws
  | k + 1, ws => expandSchedule k (nextWord ws :: ws)

/-- The 80 words of the schedule, `W[0]` first (R211). -/
def scheduleList (msg : Vector Byte 64) : List Word := (expandSchedule 64 (inputWords msg).reverse).reverse

/-- The register `W` (R35, R211). -/
@[irreducible] def schedule (msg : Vector Byte 64) : Vector Word 80 :=
  Vector.ofFn fun t => (scheduleList msg).getD t.val 0

/-- `f_t(b, c, d)` (R212). -/
def roundFunction (t : Nat) (b c d : Word) : Word :=
  if t < 20 then (b &&& c) ||| (~~~b &&& d)
  else if t < 40 then b ^^^ c ^^^ d
  else if t < 60 then (b &&& c) ||| (b &&& d) ||| (c &&& d)
  else b ^^^ c ^^^ d

/-- `K_t` (R212). -/
def roundConstant (t : Nat) : Word :=
  if t < 20 then 0x5A827999 else if t < 40 then 0x6ED9EBA1 else if t < 60 then 0x8F1BBCDC else 0xCA62C1D6

/-- The five working registers. -/
structure Working where
  a : Word
  b : Word
  c : Word
  d : Word
  e : Word
  deriving DecidableEq, Repr

/-- Round t with schedule word w (R213): all five registers from their old values. -/
def roundStep (v : Working) (t : Nat) (w : Word) : Working where
  a := rotl 5 v.a + roundFunction t v.b v.c v.d + v.e + roundConstant t + w
  b := v.a
  c := rotl 30 v.b
  d := v.c
  e := v.d

/-- The rounds from round t on, over the words of the schedule that are left. -/
def runRounds : Nat → List Word → Working → Working
  | _, [], v => v
  | t, w :: ws, v => runRounds (t + 1) ws (roundStep v t w)

/-- The registers before round 0 (R214): `SHA1_IV`. -/
def ivWorking : Working :=
  ⟨Config.sha1Iv[0], Config.sha1Iv[1], Config.sha1Iv[2], Config.sha1Iv[3], Config.sha1Iv[4]⟩

/-- The registers after round 79. -/
@[irreducible] def workingAfter (msg : Vector Byte 64) : Working := runRounds 0 (scheduleList msg) ivWorking

/-- The output (R214): the initial vector is added to the registers, unless `SHA1_FEED_FORWARD` is false. -/
def hashOutput (feedForward : Bool) (v : Working) : Vector Word 5 :=
  if feedForward then
    #v[Config.sha1Iv[0] + v.a, Config.sha1Iv[1] + v.b, Config.sha1Iv[2] + v.c, Config.sha1Iv[3] + v.d,
      Config.sha1Iv[4] + v.e]
  else #v[v.a, v.b, v.c, v.d, v.e]

/-- `SHA1` (R215): one block, from `SHA1_IV` on every call. -/
def doSha1 (s : State) : State :=
  let v := workingAfter s.sha.msg
  { s with sha := ⟨s.sha.msg, schedule s.sha.msg, v.a, v.b, v.c, v.d, v.e, hashOutput s.cfg.sha1FeedForward v⟩ }

/-! ### Secret, MAC and comparator (R217 to R223) -/

/-- `DERIVE_SECRET` (R217). -/
def doDeriveSecret (s : State) : State :=
  let block := secretBlock s.cfg.secretTemplate s.cfg.secretIdOffset s.session.ident
  let hashed := doSha1 { s with sha := { s.sha with msg := block } }
  { hashed with session := { hashed.session with secret := extractSecret hashed.cfg.secretExtract hashed.sha.h } }

/-- `COMPUTE_MAC` (R220). -/
def doComputeMac (s : State) : State :=
  let hashed := doSha1 { s with sha := { s.sha with msg := macBlock s.cfg.macLayout s.session } }
  { hashed with session := { hashed.session with mach := macBytes hashed.sha.h } }

/-- `VERIFY_MAC` (R223). -/
def doVerifyMac (s : State) : State := { s with flags := { s.flags with macOk := macOkOf s.session } }

/-! ### The meanings -/

/-- Micro-operation `SHA1` (R215). -/
def execSha1 (s : State) : Host.Outcome State Fault Refusal := .next (doSha1 s)

/-- Micro-operation `DERIVE_SECRET` (R217). -/
def execDeriveSecret (s : State) : Host.Outcome State Fault Refusal := .next (doDeriveSecret s)

/-- Micro-operation `COMPUTE_MAC` (R220). -/
def execComputeMac (s : State) : Host.Outcome State Fault Refusal := .next (doComputeMac s)

/-- Micro-operation `VERIFY_MAC` (R223). -/
def execVerifyMac (s : State) : Host.Outcome State Fault Refusal := .next (doVerifyMac s)

end Sys2Proof.Machine
end

