-- ==== Sys2Proof/Machine/Protocol.lean ====
section
/-! DEFINITION. Bus protocol engine (spec/43_bus_protocol.md R185 to R195): the gate, the selections, the four
transactions, `ECHO_CHECK`; and `DRAW_CHAL` (spec/45_sequencer.md R252). A transaction run whole leaves its result code
in `res`: `ok`, `not_present` or `integrity(cause)` (R185 (b)); it ends at its first failed check, and the operations
after it are not executed (R116). -/

namespace Sys2Proof.Machine

/-- The presence gate (R186): a `RESET`; when it finds no presence, `DeviceNotPresent` and no further slot. -/
def gate (s : State) : State := require (fun t => t.flags.present) .notPresent (succeed (doReset s))

/-- `SELECT_READ` (R187). -/
def doSelectRead (s : State) : State := thenOk (doWbyte Config.cmdReadRom) (gate s)

/-- `SELECT_SKIP` (R188). -/
def doSelectSkip (s : State) : State := thenOk (doWbyte Config.cmdSkipRom) (gate s)

/-- `CRC8_CHECK` and what it raises (R189). -/
def checkIdentifier (s : State) : State :=
  require (fun t => t.flags.crc8Ok) (.integrity .crc8Id) (doCrc8Check s)

/-- `READ_IDENTIFIER` (R189). -/
def doReadIdentifier (s : State) : State :=
  thenOk checkIdentifier (thenOk (doRblock .ident 8) (doSelectRead s))

/-- `ECHO_CHECK` (R190): the flag only. -/
def doEchoCheck (s : State) : State := { s with flags := { s.flags with echoOk := echoOkOf s.session } }

/-- `ECHO_CHECK` and what it raises (R190). -/
def checkEcho (s : State) : State :=
  require (fun t => t.flags.echoOk) (.integrity .echoMismatch) (doEchoCheck s)

/-- The command byte and the challenge written, the echo read (R190). -/
def exchangeChallenge (s : State) : State :=
  doRblock .echo 12 (doWblock (.buf .chal) 12 (doWbyte Config.cmdWriteChallenge s))

/-- `WRITE_CHALLENGE` (R190): all 12 echo bytes are read before the comparison is acted on. -/
def doWriteChallenge (s : State) : State :=
  thenOk checkEcho (thenOk exchangeChallenge (doSelectSkip s))

/-- The three bytes of the read-auth-page command as three `WBYTE` (R116, R191). -/
def sendReadAuthPage (s : State) : State := doWbyte 0x00 (doWbyte 0x00 (doWbyte 0xA5 s))

/-- `CRC16_CHECK page` and what it raises (R191). -/
def checkPage (s : State) : State :=
  require (fun t => t.flags.crc16Ok) (.integrity .crc16Page) (doCrc16Check .page s)

/-- `CRC16_CHECK mac` and what it raises (R191). -/
def checkMac (s : State) : State :=
  require (fun t => t.flags.crc16Ok) (.integrity .crc16Mac) (doCrc16Check .mac s)

/-- The command sent and the page frame read (R191). -/
def readPage (s : State) : State := doRblock .rbuf s.cfg.nPageRead.count.toNat (sendReadAuthPage s)

/-- The settle delay `T_CSHA` and the MAC frame (R191). -/
def readMac (s : State) : State := doRblock .mbuf 22 (doDelay Config.tCsha s)

/-- `READ_AUTH_PAGE` (R191): a bad page frame ends it with neither the delay nor the MAC frame. -/
def doReadAuthPage (s : State) : State :=
  thenOk checkMac (thenOk readMac (thenOk checkPage (thenOk readPage (doSelectSkip s))))

/-- The seven bytes sent and the two read (R192): c0, c1 go to the first two bytes of `MBUF`. -/
def exchangeSoftReset (s : State) : State :=
  doRblock .mbuf 2 (doWblock (.const Config.cmdSoftReset) 7 s)

/-- `CRC16_CHECK soft` and what it raises (R192). -/
def checkSoft (s : State) : State :=
  require (fun t => t.flags.crc16Ok) (.integrity .crc16Soft) (doCrc16Check .soft s)

/-- The settle delay after a soft reset that was taken (R192). -/
def settle (s : State) : State := doDelay s.cfg.tSoftSettle s

/-- `SOFT_RESET_TXN` (R192): no settle delay after a failed check. -/
def doSoftResetTxn (s : State) : State :=
  thenOk settle (thenOk checkSoft (thenOk exchangeSoftReset (doSelectSkip s)))

/-! ### The meanings -/

/-- `SELECT_READ` (R187). -/
def execSelectRead (s : State) : Host.Outcome State Fault Refusal := .next (doSelectRead s)

/-- `SELECT_SKIP` (R188). -/
def execSelectSkip (s : State) : Host.Outcome State Fault Refusal := .next (doSelectSkip s)

/-- `READ_IDENTIFIER` (R189). -/
def execReadIdentifier (s : State) : Host.Outcome State Fault Refusal := .next (doReadIdentifier s)

/-- `WRITE_CHALLENGE` (R190). -/
def execWriteChallenge (s : State) : Host.Outcome State Fault Refusal := .next (doWriteChallenge s)

/-- `READ_AUTH_PAGE` (R191). -/
def execReadAuthPage (s : State) : Host.Outcome State Fault Refusal := .next (doReadAuthPage s)

/-- `SOFT_RESET_TXN` (R192). -/
def execSoftResetTxn (s : State) : Host.Outcome State Fault Refusal := .next (doSoftResetTxn s)

/-- Micro-operation `ECHO_CHECK` (R190). -/
def execEchoCheck (s : State) : Host.Outcome State Fault Refusal := .next (doEchoCheck s)

/-- Micro-operation `DRAW_CHAL` (R252). -/
def execDrawChal (s : State) : Host.Outcome State Fault Refusal := .next (drawChallenge s)

end Sys2Proof.Machine
end

