-- ==== Sys2Proof/Machine/Commands.lean ====
section
/-! DEFINITION. The host commands run whole, as the pseudocode of spec/45_sequencer.md R240 to R250 writes them ("the
pseudocode rules govern", R253). `step` runs a command started at the host port operation by operation
(Sys2Proof.Machine.Sequencer); that both give the same state is Obligations.StartedCommandRunsAsItsPseudocode. -/

namespace Sys2Proof.Machine

/-- The attempts left of a retried unit (R241): the counter goes up, the body runs; a failure that may be retried leads
to the next attempt while there is one, and the last result stands. -/
def retryFrom (body : State → State) : Nat → State → State
  | 0, s => s
  | left + 1, s =>
    let tried := body (setAtt (s.seq.att + 1) s)
    match tried.res with
    | .ok => tried
    | .none => tried
    | .failed f => if retryable tried.cfg f then retryFrom body left tried else tried

/-- `retry(body)` (R241): up to `N_ATTEMPTS` attempts, the counter cleared first. -/
def retry (body : State → State) (s : State) : State := retryFrom body Config.nAttempts (setAtt 0 s)

/-- The end of a command after its last retried unit (R242 to R244): `OK` with the output named, or the failure. -/
def conclude (out : Output) (s : State) : State :=
  match s.res with
  | .ok => finish .ok .none out s
  | .failed f => finish (failureStatus f) (failureCause f) .nothing s
  | .none => s

/-- `COMPUTE_MAC`, `VERIFY_MAC` and what a mismatch gives (R246, R248). -/
def judgeMac (s : State) : State :=
  require (fun t => t.flags.macOk) .macMismatch (doVerifyMac (doComputeMac s))

/-- `AUTH_ATTEMPT` (R246): a fresh challenge, the two transactions, the MAC. -/
def authAttempt (s : State) : State :=
  thenOk judgeMac (thenOk doReadAuthPage (doWriteChallenge (drawChallenge s)))

/-- `GET_IDENTIFIER` (R242) from its acceptance to `DONE`. -/
def runGetIdentifier (s : State) : State := conclude .ident (retry doReadIdentifier (accept 1 s))

/-- `AUTHENTICATE` after its identifier phase (R243, R246): the secret is derived once, then the loop. -/
def authenticateFrom (found : State) : State :=
  match found.res with
  | .ok => conclude .trusted (retry authAttempt (doDeriveSecret found))
  | .failed _ => conclude .nothing found
  | .none => found

/-- `AUTHENTICATE` (R243) from its acceptance to `DONE`. -/
def runAuthenticate (s : State) : State := authenticateFrom (retry doReadIdentifier (accept 2 s))

/-- `SOFT_RESET` (R244) from its acceptance to `DONE`. -/
def runSoftReset (s : State) : State := conclude .nothing (retry doSoftResetTxn (accept 3 s))

/-- A command is accepted when `BUSY` = 0 (R240) and ignored when `BUSY` = 1 (R251). -/
def whenIdle (run : State → State) (s : State) : State := if s.flags.busy then s else run s

/-! ### The meanings -/

/-- Host command code 00 is reserved: "no command is accepted", nothing changes (R108). -/
def execReservedHc00 (s : State) : Host.Outcome State Fault Refusal := .next s

/-- `GET_IDENTIFIER` (R242). -/
def execGetIdentifier (s : State) : Host.Outcome State Fault Refusal := .next (whenIdle runGetIdentifier s)

/-- `AUTHENTICATE` (R243). -/
def execAuthenticate (s : State) : Host.Outcome State Fault Refusal := .next (whenIdle runAuthenticate s)

/-- `SOFT_RESET` (R244). -/
def execSoftReset (s : State) : Host.Outcome State Fault Refusal := .next (whenIdle runSoftReset s)

end Sys2Proof.Machine
end

