-- ==== Sys2Proof/Machine/Dispatch.lean ====
section
/-! DEFINITION. What each operation does: one arm per constructor of `Instr`, each a call of the meaning. -/

namespace Sys2Proof.Machine

def exec (i : Instr) (s : State) : Host.Outcome State Fault Refusal :=
  match i with
  -- format HC: host command codes
  | .reservedHc00 => Sys2Proof.Machine.execReservedHc00 s
  | .getIdentifier => Sys2Proof.Machine.execGetIdentifier s
  | .authenticate => Sys2Proof.Machine.execAuthenticate s
  | .softReset => Sys2Proof.Machine.execSoftReset s
  -- format SL: line symbols
  | .wbitOne => Sys2Proof.Machine.execWbitOne s
  | .wbitZero => Sys2Proof.Machine.execWbitZero s
  | .rbitSymbol => Sys2Proof.Machine.execRbitSymbol s
  | .resetSymbol => Sys2Proof.Machine.execResetSymbol s
  -- formats WC1, WC3, WC7: wire commands
  | .readRom => Sys2Proof.Machine.execReadRom s
  | .skipRom => Sys2Proof.Machine.execSkipRom s
  | .writeChallenge => Sys2Proof.Machine.execWriteChallenge s
  | .readAuthPage => Sys2Proof.Machine.execReadAuthPage s
  | .softResetTxn => Sys2Proof.Machine.execSoftResetTxn s
  -- format UOP: micro-operations
  | .reset => Sys2Proof.Machine.execReset s
  | .wbit b => Sys2Proof.Machine.execWbit b s
  | .rbit => Sys2Proof.Machine.execRbit s
  | .delay n => Sys2Proof.Machine.execDelay n s
  | .wbyte v => Sys2Proof.Machine.execWbyte v s
  | .rbyte => Sys2Proof.Machine.execRbyte s
  | .wblock src n => Sys2Proof.Machine.execWblock src n s
  | .rblock buf n => Sys2Proof.Machine.execRblock buf n s
  | .crc8Check => Sys2Proof.Machine.execCrc8Check s
  | .crc16Check frame => Sys2Proof.Machine.execCrc16Check frame s
  | .sha1 => Sys2Proof.Machine.execSha1 s
  | .deriveSecret => Sys2Proof.Machine.execDeriveSecret s
  | .computeMac => Sys2Proof.Machine.execComputeMac s
  | .verifyMac => Sys2Proof.Machine.execVerifyMac s
  | .drawChal => Sys2Proof.Machine.execDrawChal s
  | .echoCheck => Sys2Proof.Machine.execEchoCheck s
  -- operations without a code
  | .crc8Update byte => Sys2Proof.Machine.execCrc8Update byte s
  | .crc16Update byte => Sys2Proof.Machine.execCrc16Update byte s
  | .selectRead => Sys2Proof.Machine.execSelectRead s
  | .selectSkip => Sys2Proof.Machine.execSelectSkip s
  | .readIdentifier => Sys2Proof.Machine.execReadIdentifier s

end Sys2Proof.Machine
end

