-- ==== Sys2Proof/Machine/Sequencer.lean ====
section
/-! DEFINITION. The command sequencer operation by operation: the micro-operation `SEQ` names
(spec/43_bus_protocol.md R193) and the transitions of spec/45_sequencer.md R253, with R241 for `PRESENCE_RETRY`. -/

namespace Sys2Proof.Machine

/-- The micro-operations of a phase in the order of `SEQ.step` (R193). A phase of R253 that only decides
(`AUTH_VERIFY`, `FINISH`), or in which the block waits (`IDLE`), has none. -/
def phaseProgram (p : Config.Params) : Phase → List Instr
  | .idle => []
  | .idPhase => [.reset, .wbyte Config.cmdReadRom, .rblock .ident 8, .crc8Check]
  | .derive => [.deriveSecret]
  | .authChallenge =>
    [.reset, .wbyte Config.cmdSkipRom, .wbyte Config.cmdWriteChallenge, .wblock (.buf .chal) 12, .rblock .echo 12,
      .echoCheck]
  | .authPage =>
    [.reset, .wbyte Config.cmdSkipRom, .wbyte 0xA5, .wbyte 0x00, .wbyte 0x00, .rblock .rbuf p.nPageRead.count,
      .crc16Check .page, .delay Config.tCsha, .rblock .mbuf 22, .crc16Check .mac]
  | .authVerify => []
  | .soft =>
    [.reset, .wbyte Config.cmdSkipRom, .wblock (.const Config.cmdSoftReset) 7, .rblock .mbuf 2, .crc16Check .soft,
      .delay p.tSoftSettle]
  | .finish _ _ _ => []

/-- The micro-operation `SEQ` names (R28, R193). -/
def seqInstr (s : State) : Option Instr := (phaseProgram s.cfg s.seq.phase)[s.seq.step.toNat]?

/-- The failure of the gate or check at this step, if its flag is 0 (R186, R189 to R192, R193 last sentence). -/
def stepFailure (s : State) : Option Failure :=
  match s.seq.phase, s.seq.step.toNat with
  | .idPhase, 0 => if s.flags.present then none else some .notPresent
  | .idPhase, 3 => if s.flags.crc8Ok then none else some (.integrity .crc8Id)
  | .authChallenge, 0 => if s.flags.present then none else some .notPresent
  | .authChallenge, 5 => if s.flags.echoOk then none else some (.integrity .echoMismatch)
  | .authPage, 0 => if s.flags.present then none else some .notPresent
  | .authPage, 6 => if s.flags.crc16Ok then none else some (.integrity .crc16Page)
  | .authPage, 9 => if s.flags.crc16Ok then none else some (.integrity .crc16Mac)
  | .soft, 0 => if s.flags.present then none else some .notPresent
  | .soft, 4 => if s.flags.crc16Ok then none else some (.integrity .crc16Soft)
  | _, _ => none

/-- The transition at the end of a phase's sequence (R253). -/
def phaseEnd (s : State) : State :=
  match s.seq.phase with
  | .idPhase => if s.seq.cmd = 1 then goTo (.finish .ok .none .ident) s else goTo .derive s
  | .derive => beginAuthAttempt 1 s
  | .authChallenge => goTo .authPage s
  | .authPage => goTo .authVerify (doVerifyMac (doComputeMac s))
  | .soft => goTo (.finish .ok .none .nothing) s
  | .idle => s
  | .authVerify => s
  | .finish _ _ _ => s

/-- "`SEQ.step` advances by one" (R28). -/
def advance (s : State) : State := { s with seq := { s.seq with step := s.seq.step + 1 } }

/-- What the sequencer does when the micro-operation `SEQ` names has completed (R28, R193, R253). -/
def afterOperation (s : State) : State :=
  match stepFailure s with
  | some f => takeFailure f s
  | none => if s.seq.step.toNat + 1 < (phaseProgram s.cfg s.seq.phase).length then advance s else phaseEnd s

/-- The decision of `AUTH_VERIFY` (R253, R248): no operation of its own. -/
def verdict (s : State) : State :=
  if s.flags.macOk then goTo (.finish .ok .none .trusted) s else takeFailure .macMismatch s

/-- A request at the host port (R240, R108, R251): accepted when `BUSY` = 0 and the code is not 00, else without
effect. -/
def hostAccepts (cmd : BitVec 2) (s : State) : Bool := !s.flags.busy && decide (cmd ≠ 0)

end Sys2Proof.Machine
end

