-- ==== Sys2Proof/Machine/Reset.lean ====
section
/-! DEFINITION. The reset input `rst` (spec/70_reset_and_hazards.md R300 to R302): every register takes its value of
spec/10_state.md R49, the line is released at once, and the trace of a running command is cut at an arbitrary
microsecond. What the agents outside the block have not yet been asked stays theirs. -/

namespace Sys2Proof.Machine

/-- The events of a trace, oldest first, that happen in its first us microseconds: a wait may be cut short, and an
event at the very instant of the cut does not happen. -/
def cutTrace : Nat → List Event → List Event
  | 0, _ => []
  | us + 1, .W n :: rest => if n ≤ us + 1 then .W n :: cutTrace (us + 1 - n) rest else [.W (us + 1)]
  | us + 1, .L :: rest => .L :: cutTrace (us + 1) rest
  | us + 1, .Z :: rest => .Z :: cutTrace (us + 1) rest
  | us + 1, .S v :: rest => .S v :: cutTrace (us + 1) rest
  | us + 1, .C bytes :: rest => .C bytes :: cutTrace (us + 1) rest
  | _ + 1, [] => []

/-- The samples of a trace. -/
def samplesIn (tr : List Event) : Nat := tr.countP fun e => match e with | .S _ => true | _ => false

/-- The challenges drawn in a trace. -/
def drawsIn (tr : List Event) : Nat := tr.countP fun e => match e with | .C _ => true | _ => false

/-- Events appended to a trace, newest first (R9). -/
def appendEvents (tr : List Event) (events : List Event) : List Event := events.foldl (fun acc e => pushEvent e acc) tr

/-- What the operation of a step would put on the trace: `after` is the state it leads to from a `before` whose trace is
empty. -/
def operationEvents (after : State) : List Event := after.line.traceRev.reverse

/-- The state with an empty trace, from which the events of one operation are read off. -/
def withEmptyTrace (s : State) : State := { s with line := { s.line with traceRev := [] } }

/-- `rst` rises so many microseconds after the beginning of an operation that put `events` on the trace (R300, R302). -/
def cutByReset (us : Nat) (events : List Event) (gapNo : Nat) (s : State) : State :=
  let seen := cutTrace us events
  let fresh := State.resetWith s.cfg
  { fresh with
    line :=
      { fresh.line with
        script := s.line.script.drop (samplesIn seen)
        sampleNo := s.line.sampleNo + samplesIn seen
        gapNo := gapNo
        traceRev := appendEvents s.line.traceRev seen }
    env :=
      { s.env with
        chalScript := s.env.chalScript.drop (drawsIn seen)
        chalNo := s.env.chalNo + drawsIn seen } }

end Sys2Proof.Machine
end

