-- ==== Sys2Proof/Machine/Run.lean ====
section
/-! DEFINITION. What one step can be: one operation of the sequencer, one transition of spec/45_sequencer.md R253, a
request at the host port, `rst`, or one operation presented by its code. -/

namespace Sys2Proof.Machine

/-- Running an operation, then what the sequencer does next. -/
def execThen (i : Instr) (next : State → State) (s : State) : Host.Outcome State Fault Refusal :=
  match exec i s with
  | .next t => .next (next t)
  | .fault f => .fault f
  | .refused r => .refused r

/-- The sequencer's step (R28, R253): the micro-operation `SEQ` names and its transition; in `AUTH_VERIFY` and `FINISH`
the transition alone; in `IDLE` nothing (R286). DESIGN CHOICE: this grain, log entries 2 and 12. -/
def sequencerStep (s : State) : Host.Outcome State Fault Refusal :=
  match s.seq.phase with
  | .idle => .next s
  | .authVerify => .next (verdict s)
  | .finish st c out => .next (finish st c out s)
  | p =>
    match seqInstr s with
    | some i => execThen i afterOperation s
    | none => .fault (.noSuchPosition p s.seq.step)

/-- A code presented to the block: decoded and run whole; the sequencer keeps its position (DESIGN CHOICE, log
entry 8). -/
def presentedStep (c : Code) (s : State) : Host.Outcome State Fault Refusal :=
  match decode c with
  | .ok i => exec i s
  | .error r => .refused (.undecodable r)

/-- A request at the host port (R240, R251): accepted, or without effect on what the sequencer does. -/
def requestStep (cmd : BitVec 2) (s : State) : Host.Outcome State Fault Refusal :=
  if hostAccepts cmd s then .next (accept cmd s) else sequencerStep s

/-- `rst` during the sequencer's step (R302; DESIGN CHOICE: where in the step it falls, log entry 8). -/
def resetStep (us : Nat) (s : State) : Host.Outcome State Fault Refusal :=
  match sequencerStep (withEmptyTrace s) with
  | .next t => .next (cutByReset us (operationEvents t) t.line.gapNo s)
  | .fault _ => .next (cutByReset us [] s.line.gapNo s)
  | .refused _ => .next (cutByReset us [] s.line.gapNo s)

/-- The input of this step is used up. -/
def popInput (s : State) : State := { s with env := { s.env with inputs := s.env.inputs.tail } }

/-- The state in which the next step is presented this code. -/
def withPresented (c : Code) (s : State) : State := { s with env := { s.env with inputs := .op c :: s.env.inputs } }

end Sys2Proof.Machine
end

