-- ==== Sys2Proof/Machine/Step.lean ====
section
/-! DEFINITION. One step of the machine: what the host does at this moment (one entry of `env.inputs`), and with it one
operation of the sequencer, or one operation presented by its code. -/

namespace Sys2Proof.Machine

/-- One step. -/
def step (s : State) : Host.Outcome State Fault Refusal :=
  match s.env.inputs with
  | [] => sequencerStep s
  | .quiet :: _ => sequencerStep (popInput s)
  | .start cmd :: _ => requestStep cmd (popInput s)
  | .rst us :: _ => resetStep us (popInput s)
  | .op c :: _ => presentedStep c (popInput s)

/-- The state in which the next step runs the operation of this word of the opcode table (DESIGN CHOICE, log entry 10). -/
def State.withFetchWord (s : State) (nbits w : Nat) : State := withPresented (codeOfTableWord nbits w) s

end Sys2Proof.Machine
end

