-- ==== Sys2Proof/Machine/Ports.lean ====
section
/-! DEFINITION. What the host sees: the output ports of spec/10_state.md R36 and the outcome of a command
(spec/00_scope.md R10, R11). -/

namespace Sys2Proof.Machine

/-- `STATUS` as the bits of its port (R38, R114). -/
def statusCode : Status → BitVec 3
  | .none => 0
  | .ok => 1
  | .deviceNotPresent => 2
  | .integrityError => 3
  | .authenticationFailure => 4

/-- `CAUSE` as the bits of its port (R39, R114). -/
def causeCode : Cause → BitVec 3
  | .none => 0
  | .crc8Id => 1
  | .echoMismatch => 2
  | .crc16Page => 3
  | .crc16Mac => 4
  | .crc16Soft => 5

/-- The output ports (R36). -/
structure PortView where
  busy : Bool
  done : Bool
  status : BitVec 3
  cause : BitVec 3
  idOut : BitVec 64
  trustedOut : BitVec 32
  lineDriveLow : Bool
  chalReq : Bool
  deriving DecidableEq, Repr

/-- The output ports of a state. -/
def ports (s : State) : PortView where
  busy := s.flags.busy
  done := s.flags.done
  status := statusCode s.host.status
  cause := causeCode s.host.cause
  idOut := s.host.idOut
  trustedOut := s.host.trustedOut
  lineDriveLow := s.line.drv
  chalReq := s.chalReq

/-- The block's one interrupt request: the level `done`, without mask (R274). -/
def interruptRequest (s : State) : Bool := s.flags.done

/-- The outcome of a command (R10). -/
inductive Outcome where
  | identifier (value : BitVec 64)
  | trustedBytes (value : BitVec 32)
  | done
  | deviceNotPresent
  | integrityError (cause : Cause)
  | authenticationFailure
  deriving DecidableEq, Repr

/-- The outcome the host reads after the command with this code (R10, R11, R43, R44): none while the command runs, and
none for a command that `rst` cut (R302). -/
def outcomeOf (cmd : BitVec 2) (s : State) : Option Outcome :=
  if s.flags.done = true ∧ s.flags.busy = false then
    match s.host.status with
    | .none => none
    | .ok =>
      match cmd.toNat with
      | 1 => some (.identifier s.host.idOut)
      | 2 => some (.trustedBytes s.host.trustedOut)
      | 3 => some .done
      | _ => none
    | .deviceNotPresent => some .deviceNotPresent
    | .integrityError => some (.integrityError s.host.cause)
    | .authenticationFailure => some .authenticationFailure
  else none

end Sys2Proof.Machine
end

