-- ==== Sys2Proof/Safety.lean ====
section
/-! DEFINITION. The words claims are written in: what the line answers and what operations put on it, what the block
expects of a peripheral, the rows of the sequencer's tables, and the invariants that rule out states no run reaches. -/

namespace Sys2Proof.Safety

open Sys2Proof.Machine

/-! ### The answers of the line environment (spec/00_scope.md R5) -/

/-- The level the line environment answers to the k-th sample from now, k from 0. -/
def answer (l : Line) (k : Nat) : Bool :=
  match l.script[k]? with
  | some v => v
  | none => Config.freeLevel (l.sampleNo + k)

/-- The byte eight samples in a row make, the first of them the k-th from now (R104):
`v = s0 | s1 << 1 | ... | s7 << 7`. -/
def answeredByte (l : Line) (k : Nat) : Byte :=
  (List.range 8).foldl (fun v j => setBit j (answer l (k + j)) v) 0

/-- n answered bytes in a row, the first byte first. -/
def answeredBytes (l : Line) (k n : Nat) : List Byte := (List.range n).map fun j => answeredByte l (k + 8 * j)

/-! ### What the symbols put on the trace (spec/30_encoding.md R92), oldest event first -/

/-- `WBIT 1` = `L W(6) Z W(64)`, `WBIT 0` = `L W(60) Z W(10)`. -/
def wbitEvents (b : Bool) : List Event :=
  if b then [.L, .W 6, .Z, .W 64] else [.L, .W 60, .Z, .W 10]

/-- `RBIT` = `L W(6) Z W(9) S(v) W(55)`. -/
def rbitEvents (v : Bool) : List Event := [.L, .W 6, .Z, .W 9, .S v, .W 55]

/-- `RESET` = `L W(480) Z W(70) S(v) W(410)`. -/
def resetEvents (v : Bool) : List Event := [.L, .W 480, .Z, .W 70, .S v, .W 410]

/-- A byte written: eight `WBIT`, the k-th carrying bit k (R93). -/
def byteOps (v : Byte) : List (List Event) := (List.range 8).map fun k => wbitEvents (v.getLsbD k)

/-- Bytes written, the first byte first. -/
def bytesOps (vs : List Byte) : List (List Event) := vs.flatMap byteOps

/-- n bits read, the first of them the k-th answer from now. -/
def readOps (l : Line) (k n : Nat) : List (List Event) := (List.range n).map fun j => rbitEvents (answer l (k + j))

/-- Whether an operation pulls the line low (and releases it again, R135). -/
def usesLow (op : List Event) : Bool := op.contains .L

/-- Whether an operation takes part in the gaps of R137: a challenge draw uses no line and no time. -/
def usesLine (op : List Event) : Bool :=
  match op with
  | [.C _] => false
  | _ => true

/-- The idle time of a gap (R137, U8). -/
def gapUs (g : Config.Gap) (no : Nat) : Nat :=
  match g with
  | .fixed us => us
  | .drawn => Config.freeGap no

/-- The number of the next gap. -/
def nextGap (g : Config.Gap) (no : Nat) : Nat :=
  match g with
  | .fixed _ => no
  | .drawn => no + 1

/-- Operations one after the other with `T_GAP` before each that uses the line, but before the first such one only when
`due` (R137). -/
def withGaps (g : Config.Gap) : Bool → Nat → List (List Event) → List Event
  | _, _, [] => []
  | due, no, op :: ops =>
    if usesLine op then
      if due then .W (gapUs g no) :: (op ++ withGaps g true (nextGap g no) ops)
      else op ++ withGaps g true no ops
    else op ++ withGaps g due no ops

/-- How many gaps are drawn around n operations that use the line. -/
def gapsDrawn (g : Config.Gap) (due : Bool) (n : Nat) : Nat :=
  match g with
  | .fixed _ => 0
  | .drawn => if due then n else n - 1

/-- The line side after these operations, which took this many samples: the trace with its gaps, waits in a row merged
(R9, R137), the answers used up (R5), and the line released where an operation pulled it low (R135). -/
structure LineAfter (g : Config.Gap) (l m : Line) (ops : List (List Event)) (samples : Nat) : Prop where
  trace : m.traceRev = appendEvents l.traceRev (withGaps g l.gapDue l.gapNo ops)
  due : m.gapDue = (l.gapDue || ops.any usesLine)
  drawn : m.gapNo = l.gapNo + gapsDrawn g l.gapDue (ops.countP usesLine)
  script : m.script = l.script.drop samples
  sampleNo : m.sampleNo = l.sampleNo + samples
  drv : m.drv = (l.drv && !ops.any usesLow)
  timer : m.usTimer = if ops.any usesLine then 0 else l.usTimer

/-! ### The transactions on the line (spec/30_encoding.md R103), from the k-th sample on -/

/-- `RESET` `>33` `<ID[0]` ... `<ID[7]`: 65 samples. -/
def identifierOps (l : Line) (k : Nat) : List (List Event) :=
  resetEvents (answer l k) :: (byteOps 0x33 ++ readOps l (k + 1) 64)

/-- `RESET` `>CC` `>0F` `>CHAL[0]` ... `>CHAL[11]` `<ECHO[0]` ... `<ECHO[11]`: 97 samples. -/
def challengeOps (l : Line) (k : Nat) (chal : Vector Byte 12) : List (List Event) :=
  resetEvents (answer l k) :: (bytesOps ([0xCC, 0x0F] ++ chal.toList) ++ readOps l (k + 1) 96)

/-- `RESET` `>CC` `>A5` `>00` `>00` `<RBUF[0]` ... `<RBUF[n-1]`: 1 + 8n samples. -/
def pageOps (l : Line) (k n : Nat) : List (List Event) :=
  resetEvents (answer l k) :: (bytesOps [0xCC, 0xA5, 0x00, 0x00] ++ readOps l (k + 1) (8 * n))

/-- `W(2000)` `<MBUF[0]` ... `<MBUF[21]`: 176 samples. -/
def macOps (l : Line) (k : Nat) : List (List Event) := [.W 2000] :: readOps l k 176

/-- `RESET` `>CC` `>55` `>00` `>00` `>FF` `>FF` `>FF` `>FF` `<c0` `<c1`: 17 samples. -/
def softOps (l : Line) (k : Nat) : List (List Event) :=
  resetEvents (answer l k) ::
    (bytesOps [0xCC, 0x55, 0x00, 0x00, 0xFF, 0xFF, 0xFF, 0xFF] ++ readOps l (k + 1) 16)

/-! ### What the block expects of a peripheral -/

/-- The secret of an identifier in a block with these parameters (R217). -/
def secretOf (p : Config.Params) (ident : Vector Byte 8) : Vector Byte 8 :=
  extractSecret p.secretExtract
    (hashOutput p.sha1FeedForward (workingAfter (secretBlock p.secretTemplate p.secretIdOffset ident)))

/-- The MAC over {secret, page data, challenge, identifier} in a block with these parameters (R220). -/
def expectedMac (p : Config.Params) (ident : Vector Byte 8) (chal : Vector Byte 12) (rbuf : Vector Byte 31) :
    Vector Byte 20 :=
  macBytes (hashOutput p.sha1FeedForward (workingAfter (macBlock p.macLayout
    { Session.zero with ident := ident, chal := chal, rbuf := rbuf, secret := secretOf p ident })))

/-! ### The host's side -/

/-- The host's pending inputs left out of a state. -/
def withoutInputs (s : State) : State := { s with env := { s.env with inputs := [] } }

/-- The inputs of a host that keeps to the port of R36 and does not pull `rst`: requests, or nothing. -/
def hostCalm (inputs : List Input) : Prop := ∀ x, x ∈ inputs → x = .quiet ∨ ∃ cmd, x = .start cmd

/-- What the host does in this step has no effect on the block: nothing, or a request that is not accepted (R108,
R251). -/
def inputIgnored (s : State) : Bool :=
  match s.env.inputs with
  | [] => true
  | .quiet :: _ => true
  | .start cmd :: _ => s.flags.busy || decide (cmd = 0)
  | .rst _ :: _ => false
  | .op _ :: _ => false

/-- A row of the tables of R193 and R253: at this step of this phase the block runs the operation, and where what the
operation leaves meets the event, the step ends as the effect says. -/
def Transition (phase : Phase) (position : Nat) (operation : Config.Params → Instr) (event : State → Prop)
    (effect : State → State) : Prop :=
  ∀ s t : State, inputIgnored s = true → s.seq.phase = phase → s.seq.step.toNat = position →
    exec (operation s.cfg) (popInput s) = .next t → event t → step s = .next (effect t)

/-- The sequencer at another position, in this attempt. -/
def moved (phase : Phase) (position : BitVec 6) (att : BitVec 2) (t : State) : State :=
  { t with seq := { t.seq with phase := phase, step := position, att := att } }

/-- The sequencer in `FINISH` with these arguments, no output (R276). -/
def finishing (st : Status) (c : Cause) (t : State) : State := moved (.finish st c .nothing) 0 t.seq.att t

/-! ### The invariant of the sequencer -/

/-- A trace in the one form R9 gives it, newest event first: no wait of 0 and no two waits in a row. -/
def canonicalTrace : List Event → Bool
  | [] => true
  | .W _ :: .W _ :: _ => false
  | .W n :: rest => decide (n ≠ 0) && canonicalTrace rest
  | .L :: rest => canonicalTrace rest
  | .Z :: rest => canonicalTrace rest
  | .S _ :: rest => canonicalTrace rest
  | .C _ :: rest => canonicalTrace rest

/-- The arguments of `finish` that R242 to R244 and R266 write, for the command that ends. -/
def legalFinish (cmd : BitVec 2) (st : Status) (c : Cause) (out : Output) : Bool :=
  decide (st ≠ .none) && (decide (c ≠ .none) == decide (st = .integrityError)) &&
    match out with
    | .ident => decide (st = .ok) && decide (cmd = 1)
    | .trusted => decide (st = .ok) && decide (cmd = 2)
    | .nothing => decide (st = .ok → cmd = 3)

/-- `SEQ` stands where R193 and R253 let it stand: an idle block at step 0 without a command, a running one in a phase
of its command, at a listed step, in an attempt. -/
def legalPosition (s : State) : Bool :=
  match s.seq.phase with
  | .idle => !s.flags.busy && decide (s.seq.cmd = 0) && decide (s.seq.step = 0)
  | .idPhase =>
    s.flags.busy && decide (s.seq.cmd = 1 ∨ s.seq.cmd = 2) && decide (s.seq.step.toNat < 4) && decide (1 ≤ s.seq.att.toNat)
  | .derive => s.flags.busy && decide (s.seq.cmd = 2) && decide (s.seq.step = 0) && decide (1 ≤ s.seq.att.toNat)
  | .authChallenge =>
    s.flags.busy && decide (s.seq.cmd = 2) && decide (s.seq.step.toNat < 6) && decide (1 ≤ s.seq.att.toNat)
  | .authPage =>
    s.flags.busy && decide (s.seq.cmd = 2) && decide (s.seq.step.toNat < 10) && decide (1 ≤ s.seq.att.toNat)
  | .authVerify => s.flags.busy && decide (s.seq.cmd = 2) && decide (s.seq.step = 0) && decide (1 ≤ s.seq.att.toNat)
  | .soft =>
    s.flags.busy && decide (s.seq.cmd = 3) && decide (s.seq.step.toNat < 6) && decide (1 ≤ s.seq.att.toNat)
  | .finish st c out => s.flags.busy && decide (s.seq.cmd ≠ 0) && decide (s.seq.step = 0) && legalFinish s.seq.cmd st c out

/-- The outcome registers (R38, R39, R43, R44, R311): 0 while a command runs; `CAUSE` only beside `INTEGRITY_ERROR`; an
output only beside `OK`, and one at most; a status exactly when a command has ended. -/
def legalHost (s : State) : Bool :=
  let h := s.host
  if s.flags.busy then
    !s.flags.done && decide (h.status = .none) && decide (h.cause = .none) && decide (h.idOut = 0) && decide (h.trustedOut = 0)
  else
    (s.flags.done == decide (h.status ≠ .none)) && (decide (h.cause ≠ .none) == decide (h.status = .integrityError)) &&
      decide (h.idOut ≠ 0 → h.status = .ok) && decide (h.trustedOut ≠ 0 → h.status = .ok) &&
      decide (h.idOut = 0 ∨ h.trustedOut = 0)

/-- Between two steps the line is released, no wait runs, no challenge is asked for, and the trace is in its form (R9,
R135, R281). -/
def quietLine (s : State) : Bool :=
  !s.line.drv && decide (s.line.usTimer = 0) && !s.chalReq && canonicalTrace s.line.traceRev

/-- The invariant every step keeps, whatever the inputs. -/
def Inv (s : State) : Prop := legalPosition s = true ∧ legalHost s = true ∧ quietLine s = true

/-- No operation is presented by its code in the inputs to come: the block runs as the host port and `rst` drive it. -/
def hostOnly (s : State) : Prop := ∀ c, Input.op c ∉ s.env.inputs

/-- Nothing of a session is left (R48): the session registers, the SHA-1 registers and the internal flags are 0. -/
def sessionCleared (s : State) : Prop :=
  s.session = Session.zero ∧ s.sha = ShaRegs.zero ∧ clearInternalFlags s.flags = s.flags

/-- An idle block holds nothing of any session (R48, R314), as long as the host port alone drives it. -/
def ClearedWhenIdle (s : State) : Prop :=
  legalPosition s = true ∧ hostOnly s ∧ (s.seq.phase = .idle → sessionCleared s)

end Sys2Proof.Safety
end

