-- ==== Sys2Proof/Certificates/Slice0/Obligations.lean ====
section
/-! DEFINITION. The statements for the provers, in the order: decoding, the step, the operations of each family with
what they leave unchanged, the transactions, the commands, the sequencer's tables, and the claims about every run. -/

open Sys2Proof Sys2Proof.Machine Sys2Proof.Safety

/-! ### Decoding -/

/-- The codes of spec/30_encoding.md written out, each beside the operation it names: the four host codes of R91, the
four waveforms of R92, the wire bytes of R94 to R97, and labels of each family of R107. (The operand bytes behind
a label are the model's layout: log entry 9.) -/
def Obligations.DecodeReadsTheTablesCodes : Prop :=
  decode (.hc 0b00) = .ok .reservedHc00 ∧ decode (.hc 0b01) = .ok .getIdentifier ∧
  decode (.hc 0b10) = .ok .authenticate ∧ decode (.hc 0b11) = .ok .softReset ∧
  decode (.sl ⟨6, 64, none⟩) = .ok .wbitOne ∧ decode (.sl ⟨60, 10, none⟩) = .ok .wbitZero ∧
  decode (.sl ⟨6, 64, some 15⟩) = .ok .rbitSymbol ∧ decode (.sl ⟨480, 480, some 550⟩) = .ok .resetSymbol ∧
  decode (.wire [0x33]) = .ok .readRom ∧ decode (.wire [0xCC]) = .ok .skipRom ∧
  decode (.wire [0x0F]) = .ok .writeChallenge ∧ decode (.wire [0xA5, 0x00, 0x00]) = .ok .readAuthPage ∧
  decode (.wire [0x55, 0x00, 0x00, 0xFF, 0xFF, 0xFF, 0xFF]) = .ok .softResetTxn ∧
  decode (.uop [0x0]) = .ok .reset ∧ decode (.uop [0x1, 1]) = .ok (.wbit true) ∧
  decode (.uop [0x3, 0xD0, 0x07, 0x00]) = .ok (.delay 2000) ∧ decode (.uop [0x4, 0xCC]) = .ok (.wbyte 0xCC) ∧
  decode (.uop [0x8]) = .ok .crc8Check ∧ decode (.uop [0xD]) = .ok .verifyMac ∧ decode (.uop [0xE]) = .ok .drawChal ∧
  decode (.uop [0xF]) = .ok .echoCheck

/-- No bit of a code is dropped: every operation the spec allows is what its code decodes to. (Operand bytes, and codes for
the five rows without one, are the model's layout: log entry 9.) -/
def Obligations.DecodeOfEncodeIsTheOperation : Prop := ∀ i : Instr, i.wf = true → decode (encode i) = .ok i

/-- A code that decodes is the code of that operation, on every channel; on the channels with operand bytes the decoder
hands back exactly the bytes behind it. What decodes is well formed. (The layout is log entry 9.) -/
def Obligations.EncodeOfDecodeIsTheCode : Prop :=
  (∀ cmd i, decode (.hc cmd) = .ok i → encode i = .hc cmd) ∧
  (∀ wave i, decode (.sl wave) = .ok i → encode i = .sl wave) ∧
  (∀ bytes i, decode (.wire bytes) = .ok i → encode i = .wire bytes) ∧
  (∀ bytes i rest, decodeUop bytes = .ok (i, rest) → ∃ word, encode i = .uop word ∧ bytes = word ++ rest) ∧
  (∀ bytes i rest, decodeComposite bytes = .ok (i, rest) → ∃ word, encode i = .composite word ∧ bytes = word ++ rest) ∧
  (∀ c i, decode c = .ok i → i.wf = true)

/-! ### The step -/

/-- A step with an operation presented runs exactly what the decoder reads from the code, and stops by name where the
code is none; a word of the opcode table stored for the next step is run by the next step. (Presenting an operation by
its code is the model's own device: log entries 8 and 10.) -/
def Obligations.StepRunsThePresentedOperation : Prop :=
  (∀ (s : State) (c : Code) (rest : List Input) (i : Instr), s.env.inputs = .op c :: rest → decode c = .ok i →
    step s = exec i { s with env := { s.env with inputs := rest } }) ∧
  (∀ (s : State) (c : Code) (rest : List Input) (r : Reject), s.env.inputs = .op c :: rest → decode c = .error r →
    step s = .refused (.undecodable r)) ∧
  (∀ (s : State) (nbits w : Nat) (i : Instr), decodeTableWord nbits w = some i →
    step (s.withFetchWord nbits w) = exec i s)

/-- A step of a running block runs the micro-operation `SEQ` names and then moves `SEQ` on (R28); a step of an idle block
that gets no request it may accept does nothing (R286). -/
def Obligations.StepRunsTheNamedMicroOperation : Prop :=
  (∀ (s t : State) (i : Instr), inputIgnored s = true → seqInstr s = some i → exec i (popInput s) = .next t →
    step s = .next (afterOperation t)) ∧
  (∀ s : State, inputIgnored s = true → s.seq.phase = .idle → step s = .next (popInput s))

/-- A request at an idle block with a code other than 00 is `accept(cmd)` of R240, field by field, with the clears of R48 and
the first attempt of R253; every other request leaves the step as it is without it. (The model's: one step a request, log
entries 2 and 8; that `SHREG`, `BYTE_CNT` and `BIT_CNT` are cleared too, log entry 25; the fields `gapDue` and `res`, log
entries 6 and 7.) -/
def Obligations.AcceptanceStartsTheCommand : Prop :=
  (∀ (s : State) (cmd : BitVec 2) (rest : List Input), s.env.inputs = .start cmd :: rest → s.flags.busy = false →
    cmd ≠ 0 →
    step s = .next { s with
      env := { s.env with inputs := rest }
      seq := ⟨cmd, if cmd = 3 then .soft else .idPhase, 0, 1, 0, 0⟩
      shreg := 0
      flags := ⟨false, false, false, false, false, true, false⟩
      host := ⟨.none, .none, 0, 0⟩
      session := Session.zero
      crc8r := 0
      crc16r := 0
      sha := ShaRegs.zero
      line := { s.line with traceRev := [], gapDue := false }
      res := .none }) ∧
  (∀ (s : State) (cmd : BitVec 2) (rest : List Input), s.env.inputs = .start cmd :: rest →
    (s.flags.busy = true ∨ cmd = 0) →
    step s = step { s with env := { s.env with inputs := .quiet :: rest } })

/-- Requests without effect. Code 00 is no command: as an operation it changes nothing; at the port of an idle block nothing
changes but the request being gone. A busy block does with a request what it does without it, and does not run a command. -/
def Obligations.RequestsThatHaveNoEffect : Prop :=
  (∀ s : State, exec .reservedHc00 s = .next s) ∧
  (∀ (s : State) (rest : List Input), s.env.inputs = .start 0 :: rest → s.seq.phase = .idle →
    step s = .next { s with env := { s.env with inputs := rest } }) ∧
  (∀ (s : State) (cmd : BitVec 2) (rest : List Input), s.env.inputs = .start cmd :: rest → s.flags.busy = true →
    step s = step { s with env := { s.env with inputs := .quiet :: rest } }) ∧
  (∀ s : State, s.flags.busy = true →
    ∀ i, i ∈ [Instr.getIdentifier, .authenticate, .softReset] → exec i s = .next s)

/-- The table of R49. -/
def Obligations.ResetStateIsTheTable : Prop :=
  State.reset.session = ⟨Vector.replicate 8 0, Vector.replicate 12 0, Vector.replicate 12 0, Vector.replicate 31 0,
    Vector.replicate 22 0, Vector.replicate 8 0, Vector.replicate 20 0⟩ ∧
  State.reset.seq = ⟨0, .idle, 0, 0, 0, 0⟩ ∧ State.reset.shreg = 0 ∧ State.reset.line.usTimer = 0 ∧
  State.reset.flags = ⟨false, false, false, false, false, false, false⟩ ∧
  State.reset.host = ⟨.none, .none, 0, 0⟩ ∧ State.reset.crc8r = 0 ∧ State.reset.crc16r = 0 ∧
  State.reset.sha = ⟨Vector.replicate 64 0, Vector.replicate 80 0, 0, 0, 0, 0, 0, Vector.replicate 5 0⟩ ∧
  State.reset.line.drv = false ∧ State.reset.chalReq = false

/-- `rst` in a step: every register takes its value of R49, the line is released, and the trace is cut: what the
operation of the step, begun with an empty trace, would have added stays only as far as the given microsecond. (Where
inside a step `rst` falls is the model's grain: log entry 8.) -/
def Obligations.ResetInputCutsTheCommand : Prop :=
  ∀ (s u : State) (us : Nat) (rest : List Input), s.env.inputs = .rst us :: rest →
    sequencerStep (withEmptyTrace (popInput s)) = .next u →
    ∃ t, step s = .next t ∧
      t = { State.resetWith s.cfg with line := t.line, env := t.env } ∧
      t.line.drv = false ∧ t.line.usTimer = 0 ∧
      t.line.traceRev = appendEvents s.line.traceRev (cutTrace us u.line.traceRev.reverse) ∧
      duration (traceOf t) = duration (traceOf s) + min us (duration (traceOf u)) ∧
      t.line.script = s.line.script.drop (samplesIn (cutTrace us u.line.traceRev.reverse)) ∧
      t.env.inputs = rest

/-! ### Bit transport -/

/-- `WBIT b` = `L W(6) Z W(64)` or `L W(60) Z W(10)`, after the gap; nothing else changes. The two line symbols are the
same operation. -/
def Obligations.WbitIsItsSlot : Prop :=
  ∀ s : State,
    (∀ b : Bool, ∃ t, exec (.wbit b) s = .next t ∧ t = { s with line := t.line } ∧
      LineAfter s.cfg.tGap s.line t.line
        [if b then [.L, .W 6, .Z, .W 64] else [.L, .W 60, .Z, .W 10]] 0) ∧
    exec .wbitOne s = exec (.wbit true) s ∧ exec .wbitZero s = exec (.wbit false) s

/-- `RBIT` = `L W(6) Z W(9) S(v) W(55)`, after the gap; v, the next answer of the line, is returned; nothing else
changes. -/
def Obligations.RbitIsItsSlot : Prop :=
  ∀ s : State,
    (∃ t, exec .rbit s = .next t ∧
      t = { s with line := t.line, ret := if answer s.line 0 then 1 else 0 } ∧
      LineAfter s.cfg.tGap s.line t.line [[.L, .W 6, .Z, .W 9, .S (answer s.line 0), .W 55]] 1) ∧
    exec .rbitSymbol s = exec .rbit s

/-- `RESET` = `L W(480) Z W(70) S(p) W(410)`, after the gap; p is returned and `PRESENT` is 1 exactly when p = 0; nothing
else changes. -/
def Obligations.ResetIsItsPulse : Prop :=
  ∀ s : State,
    (∃ t, exec .reset s = .next t ∧
      t = { s with
        line := t.line, ret := if answer s.line 0 then 1 else 0
        flags := { s.flags with present := !answer s.line 0 } } ∧
      LineAfter s.cfg.tGap s.line t.line [[.L, .W 480, .Z, .W 70, .S (answer s.line 0), .W 410]] 1) ∧
    exec .resetSymbol s = exec .reset s

/-- `DELAY n` = `W(n)`, after the gap, the line as it was; nothing else changes. -/
def Obligations.DelayWaits : Prop :=
  ∀ (s : State) (n : BitVec 17), ∃ t, exec (.delay n) s = .next t ∧ t = { s with line := t.line } ∧
    LineAfter s.cfg.tGap s.line t.line [[.W n.toNat]] 0

/-! ### Byte and block codec -/

/-- `WBYTE v`: eight `WBIT`, bit k in the k-th slot; `SHREG` holds v, `BIT_CNT` ends at 7, nothing else changes.
`READ_ROM` and `SKIP_ROM` are the bytes 0x33 and 0xCC of R94, with no `RESET` and no gate of their own (the model's reading
of the opcode table's rows: log entry 16). -/
def Obligations.WbyteSendsTheLowBitFirst : Prop :=
  ∀ s : State,
    (∀ v : Byte, ∃ t, exec (.wbyte v) s = .next t ∧
      t = { s with line := t.line, shreg := v, seq := { s.seq with bitCnt := 7 } } ∧
      LineAfter s.cfg.tGap s.line t.line
        [wbitEvents (v.getLsbD 0), wbitEvents (v.getLsbD 1), wbitEvents (v.getLsbD 2), wbitEvents (v.getLsbD 3),
          wbitEvents (v.getLsbD 4), wbitEvents (v.getLsbD 5), wbitEvents (v.getLsbD 6), wbitEvents (v.getLsbD 7)] 0) ∧
    exec .readRom s = exec (.wbyte 0x33) s ∧ exec .skipRom s = exec (.wbyte 0xCC) s

/-- `RBYTE`: eight `RBIT`, the k-th sample is bit k of the byte, which `SHREG` holds and which is returned; `BIT_CNT` ends
at 7, nothing else changes. -/
def Obligations.RbyteTakesTheLowBitFirst : Prop :=
  ∀ s : State, ∃ (t : State) (v : Byte), exec .rbyte s = .next t ∧
    (∀ j, j < 8 → v.getLsbD j = answer s.line j) ∧
    t = { s with line := t.line, shreg := v, ret := v, seq := { s.seq with bitCnt := 7 } } ∧
    LineAfter s.cfg.tGap s.line t.line (readOps s.line 0 8) 8

/-- `WBLOCK buf, n`: the bytes 0 to n-1 of the buffer or sequence, in this order; the buffer is not changed. -/
def Obligations.WblockSendsAscendingBytes : Prop :=
  ∀ (s : State) (src : BlockSource) (n : BitVec 6), n.toNat ≤ src.length →
    ∃ t, exec (.wblock src n) s = .next t ∧
      t = { s with
        line := t.line
        shreg := if n = 0 then s.shreg else sourceByte s src (n.toNat - 1)
        seq := { s.seq with
          byteCnt := if n = 0 then s.seq.byteCnt else n - 1
          bitCnt := if n = 0 then s.seq.bitCnt else 7 } } ∧
      LineAfter s.cfg.tGap s.line t.line (bytesOps ((List.range n.toNat).map (sourceByte s src))) 0

/-- `RBLOCK buf, n`: sample 8k + j is bit j of byte k of the buffer; no other byte of `BUF` is touched, nothing else
changes. -/
def Obligations.RblockStoresAscendingBytes : Prop :=
  ∀ (s : State) (buf : Buf) (n : BitVec 6), n.toNat ≤ buf.length →
    ∃ t, exec (.rblock buf n) s = .next t ∧
      (∀ k j, k < n.toNat → j < 8 → (readBuf t buf k).getLsbD j = answer s.line (8 * k + j)) ∧
      (∀ b k, b ≠ buf ∨ n.toNat ≤ k → readBuf t b k = readBuf s b k) ∧
      t = { s with
        line := t.line
        shreg := if n = 0 then s.shreg else readBuf t buf (n.toNat - 1)
        ret := if n = 0 then s.ret else readBuf t buf (n.toNat - 1)
        seq := { s.seq with
          byteCnt := if n = 0 then s.seq.byteCnt else n - 1
          bitCnt := if n = 0 then s.seq.bitCnt else 7 }
        session := t.session
        sha := { s.sha with msg := t.sha.msg } } ∧
      LineAfter s.cfg.tGap s.line t.line (readOps s.line 0 (8 * n.toNat)) (8 * n.toNat)

/-- A block operation asked for more bytes than there are stops by name (log entry 14). -/
def Obligations.BlockOverrunStops : Prop :=
  (∀ (s : State) (src : BlockSource) (n : BitVec 6), src.length < n.toNat →
    exec (.wblock src n) s = .fault (.blockOverrun src.length n.toNat)) ∧
  (∀ (s : State) (buf : Buf) (n : BitVec 6), buf.length < n.toNat →
    exec (.rblock buf n) s = .fault (.blockOverrun buf.length n.toNat))

/-! ### Integrity layer -/

/-- Each entry of `T8` and of `T16` as listed is the checksum of its one byte; the updates by table are those of the
definitions by bits, from every register value; nothing else changes. (That the update of R168 is the definition of R166 is
an inference the spec marks as its own: "derived: from rule R166 and rule R167".) -/
def Obligations.UpdatesByTableAreTheDefinitions : Prop :=
  (∀ i : Byte, t8 i = crc8Bits 0 [i] ∧ t16 i = crc16Bits 0 [i]) ∧
  (∀ (s : State) (b : Byte),
    exec (.crc8Update b) s = .next { s with crc8r := t8 (s.crc8r ^^^ b) } ∧
    t8 (s.crc8r ^^^ b) = crc8Bits s.crc8r [b] ∧
    exec (.crc16Update b) s =
      .next { s with crc16r := (s.crc16r >>> 8) ^^^ t16 ((s.crc16r ^^^ b.zeroExtend 16).extractLsb' 0 8) } ∧
    (s.crc16r >>> 8) ^^^ t16 ((s.crc16r ^^^ b.zeroExtend 16).extractLsb' 0 8) = crc16Bits s.crc16r [b])

/-- `CRC8_CHECK`: the CRC8 of `ID`, by its definition, and the flag. `CRC16_CHECK frame`: the CRC16 of each of the three
frames, by its definition, and the flag. Nothing else changes. -/
def Obligations.ChecksFlagTheirSequence : Prop :=
  ∀ s : State,
    let result (bytes : List Byte) : State := { s with
      crc16r := crc16Bits 0 bytes
      flags := { s.flags with crc16Ok := decide (crc16Bits 0 bytes = 0xB001) } }
    exec .crc8Check s = .next { s with
      crc8r := crc8Bits 0 s.session.ident.toList
      flags := { s.flags with crc8Ok := decide (crc8Bits 0 s.session.ident.toList = 0) } } ∧
    exec (.crc16Check .page) s =
      .next (result ([0xA5, 0x00, 0x00] ++ s.session.rbuf.toList.take s.cfg.nPageRead.count.toNat)) ∧
    exec (.crc16Check .mac) s = .next (result s.session.mbuf.toList) ∧
    exec (.crc16Check .soft) s =
      .next (result ([0x55, 0x00, 0x00, 0xFF, 0xFF, 0xFF, 0xFF] ++ s.session.mbuf.toList.take 2))

/-- A frame is valid exactly when its last two bytes are the complement of the CRC16 of the bytes before them, low byte
first; and exactly then does the check of a MAC frame set its flag. (R174 is an inference the spec marks as its own:
"derived: from rule R170 and rule R172".) -/
def Obligations.ValidFramesEndInTheComplement : Prop :=
  (∀ (x : List Byte) (lo hi : Byte),
    crc16Bits 0 (x ++ [lo, hi]) = 0xB001 ↔
      lo = (~~~crc16Bits 0 x).extractLsb' 0 8 ∧ hi = (~~~crc16Bits 0 x).extractLsb' 8 8) ∧
  (∀ s t : State, exec (.crc16Check .mac) s = .next t →
    (t.flags.crc16Ok = true ↔
      s.session.mbuf[20] = (~~~crc16Bits 0 (s.session.mbuf.toList.take 20)).extractLsb' 0 8 ∧
      s.session.mbuf[21] = (~~~crc16Bits 0 (s.session.mbuf.toList.take 20)).extractLsb' 8 8))

/-- Both checksums are linear over exclusive or, and so are the registers the updates leave. (R175 is an inference the spec
marks as its own: "derived: from rule R166 and rule R170".) -/
def Obligations.ChecksumsAreLinear : Prop :=
  (∀ x y : List Byte, x.length = y.length →
    crc8Bits 0 (List.zipWith (· ^^^ ·) x y) = crc8Bits 0 x ^^^ crc8Bits 0 y ∧
    crc16Bits 0 (List.zipWith (· ^^^ ·) x y) = crc16Bits 0 x ^^^ crc16Bits 0 y) ∧
  (∀ (s t : State) (b c : Byte),
    (doCrc8Update { s with crc8r := s.crc8r ^^^ t.crc8r } (b ^^^ c)).crc8r =
      (doCrc8Update s b).crc8r ^^^ (doCrc8Update t c).crc8r ∧
    (doCrc16Update { s with crc16r := s.crc16r ^^^ t.crc16r } (b ^^^ c)).crc16r =
      (doCrc16Update s b).crc16r ^^^ (doCrc16Update t c).crc16r)

/-- Every change of one bit of a valid identifier is rejected. (Corner case (c) of R169, an inference the spec marks as its
own: "derived: from rule R166".) -/
def Obligations.OneWrongBitOfAnIdentifierIsSeen : Prop :=
  ∀ (s t : State) (k : Fin 8) (j : Nat), j < 8 → crc8Bits 0 s.session.ident.toList = 0 →
    exec .crc8Check { s with session := { s.session with
      ident := s.session.ident.set k (s.session.ident[k] ^^^ (1#8 <<< j)) } } = .next t →
    t.flags.crc8Ok = false

/-! ### Authentication engine -/

/-- `SHA1`: the schedule of R211 in `W`, 80 rounds of R213 with the functions and constants of R212 from `SHA1_IV`, the output of R214 (the vector added back, or not, as the parameter says);
`MSG` is kept and nothing but the core's registers changes. -/
def Obligations.Sha1RunsItsRounds : Prop :=
  ∀ s : State, ∃ (t : State) (v : Nat → Working), exec .sha1 s = .next t ∧
    (∀ (k : Nat) (h : k < 16), t.sha.w[k] =
      s.sha.msg[4 * k].zeroExtend 32 <<< 24 ||| s.sha.msg[4 * k + 1].zeroExtend 32 <<< 16 |||
        s.sha.msg[4 * k + 2].zeroExtend 32 <<< 8 ||| s.sha.msg[4 * k + 3].zeroExtend 32) ∧
    (∀ (k : Nat) (_ : 16 ≤ k) (h : k < 80),
      t.sha.w[k] = (t.sha.w[k - 3] ^^^ t.sha.w[k - 8] ^^^ t.sha.w[k - 14] ^^^ t.sha.w[k - 16]).rotateLeft 1) ∧
    v 0 = ⟨0x67452301, 0xEFCDAB89, 0x98BADCFE, 0x10325476, 0xC3D2E1F0⟩ ∧
    (∀ (k : Nat) (h : k < 80), v (k + 1) =
      let f : Word :=
        if k < 20 then ((v k).b &&& (v k).c) ||| (~~~(v k).b &&& (v k).d)
        else if k < 40 then (v k).b ^^^ (v k).c ^^^ (v k).d
        else if k < 60 then ((v k).b &&& (v k).c) ||| ((v k).b &&& (v k).d) ||| ((v k).c &&& (v k).d)
        else (v k).b ^^^ (v k).c ^^^ (v k).d
      let constant : Word :=
        if k < 20 then 0x5A827999 else if k < 40 then 0x6ED9EBA1 else if k < 60 then 0x8F1BBCDC else 0xCA62C1D6
      ⟨(v k).a.rotateLeft 5 + f + (v k).e + constant + t.sha.w[k],
        (v k).a, (v k).b.rotateLeft 30, (v k).c, (v k).d⟩) ∧
    t.sha.a = (v 80).a ∧ t.sha.b = (v 80).b ∧ t.sha.c = (v 80).c ∧ t.sha.d = (v 80).d ∧ t.sha.e = (v 80).e ∧
    t.sha.h =
      (if s.cfg.sha1FeedForward then
        #v[0x67452301 + (v 80).a, 0xEFCDAB89 + (v 80).b, 0x98BADCFE + (v 80).c, 0x10325476 + (v 80).d,
          0xC3D2E1F0 + (v 80).e]
      else #v[(v 80).a, (v 80).b, (v 80).c, (v 80).d, (v 80).e]) ∧
    t = { s with sha := { t.sha with msg := s.sha.msg } }

/-- `DERIVE_SECRET`: the block of R111 in `MSG`, the registers `SHA1` gives on it, `SECRET` extracted from `H`; `ID` and
everything else are kept. The default extraction takes the bytes of `H[4]`, then those of `H[3]`, the least significant
first. -/
def Obligations.DeriveSecretBuildsItsBlock : Prop :=
  ∀ s : State, ∃ t, exec .deriveSecret s = .next t ∧
    (∀ (k : Nat) (h : k < 64), t.sha.msg[k] =
      if hk : s.cfg.secretIdOffset.val ≤ k ∧ k < s.cfg.secretIdOffset.val + 8 then
        if k = s.cfg.secretIdOffset.val then s.session.ident[0] &&& 0x3F
        else s.session.ident[k - s.cfg.secretIdOffset.val]
      else s.cfg.secretTemplate[k]) ∧
    (∃ u, exec .sha1 { s with sha := { s.sha with msg := t.sha.msg } } = .next u ∧ t.sha = u.sha) ∧
    t = { s with
      sha := t.sha, session := { s.session with secret := extractSecret s.cfg.secretExtract t.sha.h } } ∧
    (s.cfg.secretExtract = Config.secretExtractDefault → ∀ j, j < 4 →
      byteAt t.session.secret j = t.sha.h[4].extractLsb' (8 * j) 8 ∧
      byteAt t.session.secret (4 + j) = t.sha.h[3].extractLsb' (8 * j) 8)

/-- Two identifiers that differ only in bits 7 and 6 of byte 0 give the same secret. (The consequence R218 draws, an
inference the spec marks as its own: "derived: from rule R217".) -/
def Obligations.MaskedBitsDoNotReachTheSecret : Prop :=
  ∀ (s t : State) (ident : Vector Byte 8), exec .deriveSecret s = .next t →
    ident[0] &&& 0x3F = s.session.ident[0] &&& 0x3F →
    (∀ (k : Nat) (h : k < 8), 0 < k → ident[k] = s.session.ident[k]) →
    exec .deriveSecret { s with session := { s.session with ident := ident } } =
      .next { t with session := { t.session with ident := ident } }

/-- `COMPUTE_MAC` with the default layout: the block of R112 in `MSG`, the registers `SHA1` gives on it, and `MACH` by
R222; nothing else changes. -/
def Obligations.ComputeMacBuildsItsBlock : Prop :=
  ∀ s : State, s.cfg.macLayout = Config.macLayoutDefault →
    ∃ t, exec .computeMac s = .next t ∧
      t.sha.msg.toList =
        s.session.secret.toList.take 4 ++ s.session.rbuf.toList.take 28 ++ s.session.chal.toList.drop 8 ++
          s.session.chal.toList.take 4 ++ [s.session.chal[7]] ++ s.session.ident.toList.take 7 ++
          s.session.secret.toList.drop 4 ++ (s.session.chal.toList.drop 4).take 3 ++
          [0x80, 0x00, 0x00, 0x00, 0x00, 0x00, 0x00, 0x01, 0xB8] ∧
      (∃ u, exec .sha1 { s with sha := { s.sha with msg := t.sha.msg } } = .next u ∧ t.sha = u.sha) ∧
      (∀ (k j : Nat) (h : k < 5) (_ : j < 4),
        byteAt t.session.mach (4 * k + j) = t.sha.h[4 - k].extractLsb' (8 * j) 8) ∧
      t = { s with sha := t.sha, session := { s.session with mach := t.session.mach } }

/-- Whatever the layout, byte k of the block `COMPUTE_MAC` hashes is the byte its entry names, the SHA-1 registers are those
`SHA1` gives on it, `MACH` is taken by R222, and nothing else changes; and with the default layout `ID[7]`, the filler and
CRC bytes of the page frame, `ECHO`, `MBUF` and the old `MACH` have no influence on the MAC. (What a layout can name: log
entry 22. The coverage of R221 is an inference the spec marks as its own: "derived: from rule R220".) -/
def Obligations.MacCoversWhatTheLayoutNames : Prop :=
  (∀ s : State, ∃ t, exec .computeMac s = .next t ∧
    (∀ (k : Nat) (h : k < 64), t.sha.msg[k] =
      match s.cfg.macLayout[k] with
      | .secret i => s.session.secret[i]
      | .page i => s.session.rbuf[i.val]
      | .chal i => s.session.chal[i]
      | .ident i => s.session.ident[i]
      | .const b => b) ∧
    (∃ u, exec .sha1 { s with sha := { s.sha with msg := t.sha.msg } } = .next u ∧ t.sha = u.sha) ∧
    (∀ (k j : Nat) (h : k < 5) (_ : j < 4),
      byteAt t.session.mach (4 * k + j) = t.sha.h[4 - k].extractLsb' (8 * j) 8) ∧
    t = { s with sha := t.sha, session := { s.session with mach := t.session.mach } }) ∧
  (∀ (s t : State) (m : Session), s.cfg.macLayout = Config.macLayoutDefault → exec .computeMac s = .next t →
    m.secret = s.session.secret → m.chal = s.session.chal → m.rbuf.toList.take 28 = s.session.rbuf.toList.take 28 →
    m.ident.toList.take 7 = s.session.ident.toList.take 7 →
    exec .computeMac { s with session := m } = .next { t with session := { m with mach := t.session.mach } })

/-- `VERIFY_MAC`: all 20 bytes of `MACH` against `MBUF[0..20)`. `ECHO_CHECK`: all 12 bytes of `ECHO` against `CHAL`. Each
changes its flag and nothing else. -/
def Obligations.ComparisonsTakeAllBytes : Prop :=
  ∀ s : State,
    exec .verifyMac s = .next { s with
      flags := { s.flags with macOk := decide (s.session.mach.toList = s.session.mbuf.toList.take 20) } } ∧
    exec .echoCheck s = .next { s with
      flags := { s.flags with echoOk := decide (s.session.echo = s.session.chal) } }

/-- `DRAW_CHAL`: what stands on `chal_in`, whatever it is, goes to `CHAL`, byte j from `chal_in[8j+7:8j]`, and onto the trace,
which gains no time; the next draw takes the next answer, and the request has fallen again. (The lists of answers are the
model's, log entry 5; that the request shows in no state, log entry 11.) -/
def Obligations.DrawChalTakesTheAnswer : Prop :=
  ∀ s : State, ∃ t, exec .drawChal s = .next t ∧
    t = { s with
      session := { s.session with chal := challengeAnswer s }
      chalReq := false
      line := { s.line with traceRev := .C (challengeAnswer s) :: s.line.traceRev }
      env := { s.env with chalScript := s.env.chalScript.tail, chalNo := s.env.chalNo + 1 } } ∧
    (∀ (j : Nat) (h : j < 12), t.session.chal[j] = (chalIn s).extractLsb' (8 * j) 8) ∧
    (∀ c rest, s.env.chalScript = c :: rest → chalIn s = c) ∧
    duration (traceOf t) = duration (traceOf s)

/-! ### Bus protocol engine -/

/-- The gate of the six transactions and selections: where the `RESET` finds no presence, the result is `not_present`, and
the line has seen the reset pulse and nothing else. -/
def Obligations.AbsenceIssuesNothingMore : Prop :=
  ∀ s : State, answer s.line 0 = true →
    ∀ i, i ∈ [Instr.selectRead, .selectSkip, .readIdentifier, .writeChallenge, .readAuthPage, .softResetTxn] →
      ∃ t, exec i s = .next t ∧ LineAfter s.cfg.tGap s.line t.line [resetEvents true] 1 ∧
        t = { s with
          line := t.line, ret := 1, flags := { s.flags with present := false }, res := .failed .notPresent }

/-- `SELECT_READ` and `SELECT_SKIP` on a present peripheral: the pulse and the byte. -/
def Obligations.SelectionsSendTheirByte : Prop :=
  ∀ s : State, answer s.line 0 = false →
    ∀ i v, (i, v) ∈ [(Instr.selectRead, (0x33 : Byte)), (.selectSkip, 0xCC)] →
      ∃ t, exec i s = .next t ∧ LineAfter s.cfg.tGap s.line t.line (resetEvents false :: byteOps v) 1 ∧
        t = { s with
          line := t.line, ret := 0, shreg := v, seq := { s.seq with bitCnt := 7 }
          flags := { s.flags with present := true }, res := .ok }

/-- `READ_IDENTIFIER` on a present peripheral: `ID` holds the eight bytes answered, also when the check fails. -/
def Obligations.ReadIdentifierChecksEightBytes : Prop :=
  ∀ s : State, answer s.line 0 = false →
    let bytes := answeredBytes s.line 1 8
    ∃ t, exec .readIdentifier s = .next t ∧
      LineAfter s.cfg.tGap s.line t.line (identifierOps s.line 0) 65 ∧
      t.session.ident.toList = bytes ∧
      t = { s with
        line := t.line, ret := answeredByte s.line 57, shreg := answeredByte s.line 57
        seq := { s.seq with byteCnt := 7, bitCnt := 7 }
        session := { s.session with ident := t.session.ident }
        crc8r := crc8Bits 0 bytes
        flags := { s.flags with present := true, crc8Ok := decide (crc8Bits 0 bytes = 0) }
        res := if crc8Bits 0 bytes = 0 then .ok else .failed (.integrity .crc8Id) }

/-- `WRITE_CHALLENGE` on a present peripheral: all 12 echo bytes are read and then compared. -/
def Obligations.WriteChallengeComparesTheEcho : Prop :=
  ∀ s : State, answer s.line 0 = false →
    let same := decide (answeredBytes s.line 1 12 = s.session.chal.toList)
    ∃ t, exec .writeChallenge s = .next t ∧
      LineAfter s.cfg.tGap s.line t.line (challengeOps s.line 0 s.session.chal) 97 ∧
      t.session.echo.toList = answeredBytes s.line 1 12 ∧
      t = { s with
        line := t.line, ret := answeredByte s.line 89, shreg := answeredByte s.line 89
        seq := { s.seq with byteCnt := 11, bitCnt := 7 }
        session := { s.session with echo := t.session.echo }
        flags := { s.flags with present := true, echoOk := same }
        res := if same then .ok else .failed (.integrity .echoMismatch) }

/-- `READ_AUTH_PAGE` on a present peripheral: a page frame whose CRC16 is wrong ends it with neither the delay nor the MAC
frame; else the settle delay and the MAC frame follow, and its CRC16 decides. -/
def Obligations.ReadAuthPageChecksBothFrames : Prop :=
  ∀ s : State, answer s.line 0 = false →
    let n := s.cfg.nPageRead.count.toNat
    let page := answeredBytes s.line 1 n
    let mac := answeredBytes s.line (1 + 8 * n) 22
    let pageCrc := crc16Bits 0 ([0xA5, 0x00, 0x00] ++ page)
    ∃ t, exec .readAuthPage s = .next t ∧
      t.session.rbuf.toList = page ++ s.session.rbuf.toList.drop n ∧
      (pageCrc ≠ 0xB001 →
        LineAfter s.cfg.tGap s.line t.line (pageOps s.line 0 n) (1 + 8 * n) ∧
        t = { s with
          line := t.line, ret := answeredByte s.line (8 * n - 7), shreg := answeredByte s.line (8 * n - 7)
          seq := { s.seq with byteCnt := s.cfg.nPageRead.count - 1, bitCnt := 7 }
          session := { s.session with rbuf := t.session.rbuf }
          crc16r := pageCrc
          flags := { s.flags with present := true, crc16Ok := false }
          res := .failed (.integrity .crc16Page) }) ∧
      (pageCrc = 0xB001 →
        LineAfter s.cfg.tGap s.line t.line (pageOps s.line 0 n ++ macOps s.line (1 + 8 * n)) (177 + 8 * n) ∧
        t.session.mbuf.toList = mac ∧
        t = { s with
          line := t.line, ret := answeredByte s.line (169 + 8 * n), shreg := answeredByte s.line (169 + 8 * n)
          seq := { s.seq with byteCnt := 21, bitCnt := 7 }
          session := { s.session with rbuf := t.session.rbuf, mbuf := t.session.mbuf }
          crc16r := crc16Bits 0 mac
          flags := { s.flags with present := true, crc16Ok := decide (crc16Bits 0 mac = 0xB001) }
          res := if crc16Bits 0 mac = 0xB001 then .ok else .failed (.integrity .crc16Mac) })

/-- `SOFT_RESET_TXN` on a present peripheral: FB 6E is the one answer it takes, and only then does it wait the settle
delay. -/
def Obligations.SoftResetTakesOneAnswer : Prop :=
  ∀ s : State, answer s.line 0 = false →
    let bytes := answeredBytes s.line 1 2
    let taken := decide (bytes = [0xFB, 0x6E])
    ∃ t, exec .softResetTxn s = .next t ∧
      LineAfter s.cfg.tGap s.line t.line
        (softOps s.line 0 ++ if taken then [[.W s.cfg.tSoftSettle.toNat]] else []) 17 ∧
      t.session.mbuf.toList = bytes ++ s.session.mbuf.toList.drop 2 ∧
      t = { s with
        line := t.line, ret := answeredByte s.line 9, shreg := answeredByte s.line 9
        seq := { s.seq with byteCnt := 1, bitCnt := 7 }
        session := { s.session with mbuf := t.session.mbuf }
        crc16r := crc16Bits 0 ([0x55, 0x00, 0x00, 0xFF, 0xFF, 0xFF, 0xFF] ++ bytes)
        flags := { s.flags with present := true, crc16Ok := taken }
        res := if taken then .ok else .failed (.integrity .crc16Soft) }

/-- The durations of R315 and the table of R316, with `T_GAP` = 0 (and for R316 the default page length and settle time), in
microseconds and in clock cycles. (Both are inferences the spec marks as its own: "derived: from 40_bit_transport.md rule
R131 to rule R133" and "derived: from rule R315".) -/
def Obligations.OperationsLastTheirTime : Prop :=
  ∀ s t : State, s.cfg.tGap = .fixed 0 →
    let took (us : Nat) : Prop := duration (traceOf t) = duration (traceOf s) + us ∧
      clockCycles s.cfg (traceOf t) = clockCycles s.cfg (traceOf s) + us * s.cfg.clkPerUs
    let lasts (i : Instr) (us : Nat) : Prop := exec i s = .next t → took us
    (∀ b, lasts (.wbit b) 70) ∧ lasts .rbit 70 ∧ lasts .reset 960 ∧ (∀ n, lasts (.delay n) n.toNat) ∧
    (∀ v, lasts (.wbyte v) 560) ∧ lasts .rbyte 560 ∧ (∀ src n, lasts (.wblock src n) (560 * n.toNat)) ∧
    (∀ buf n, lasts (.rblock buf n) (560 * n.toNat)) ∧
    (answer s.line 0 = true →
      ∀ i, i ∈ [Instr.selectRead, .selectSkip, .readIdentifier, .writeChallenge, .readAuthPage, .softResetTxn] →
        lasts i 960) ∧
    (answer s.line 0 = false → s.cfg.nPageRead = .read31 → s.cfg.tSoftSettle = 100000 →
      lasts .selectRead 1520 ∧ lasts .selectSkip 1520 ∧ lasts .readIdentifier 6000 ∧ lasts .writeChallenge 15520 ∧
      lasts .readAuthPage (if t.res = .failed (.integrity .crc16Page) then 20560 else 34880) ∧
      lasts .softResetTxn (if t.res = .ok then 106560 else 6560))

/-! ### Host commands -/

/-- `GET_IDENTIFIER` run whole on an idle block: attempt n (from 0) begins at sample 65n. After n attempts with presence
and a wrong CRC8, the next one ends the command: with the identifier on `ID_OUT`, with absence, or, if it is the third, with
the integrity error. `PRESENCE_RETRY` = false, the default. (That the internal flags are 0 at the end and `ATT` and the
checksum registers are kept: the model's, log entry 15.) -/
def Obligations.GetIdentifierEndsAtTheFirstVerdict : Prop :=
  ∀ (s : State) (n : Nat), s.flags.busy = false → s.cfg.presenceRetry = false → n < 3 →
    let bytes (m : Nat) := answeredBytes s.line (65 * m + 1) 8
    let bad (m : Nat) : Prop := answer s.line (65 * m) = false ∧ crc8Bits 0 (bytes m) ≠ 0
    let ends (ops : List (List Event)) (samples : Nat) (host : HostRegs) : Prop :=
      ∃ t, exec .getIdentifier s = .next t ∧
        LineAfter s.cfg.tGap { s.line with traceRev := [], gapDue := false } t.line
          (((List.range n).flatMap fun m => identifierOps s.line (65 * m)) ++ ops) samples ∧
        t = { s with
          line := t.line, ret := t.ret, shreg := t.shreg, crc8r := t.crc8r, crc16r := 0
          seq := ⟨0, .idle, 0, BitVec.ofNat 2 (n + 1), t.seq.byteCnt, t.seq.bitCnt⟩
          flags := ⟨false, false, false, false, false, false, true⟩
          host := host, session := Session.zero, sha := ShaRegs.zero, res := .none }
    (∀ m, m < n → bad m) →
      (answer s.line (65 * n) = true → ends [resetEvents true] (65 * n + 1) ⟨.deviceNotPresent, .none, 0, 0⟩) ∧
      (answer s.line (65 * n) = false → crc8Bits 0 (bytes n) = 0 →
        ∃ value : BitVec 64, (∀ j, j < 8 → value.extractLsb' (8 * j) 8 = (bytes n).getD j 0) ∧
          ends (identifierOps s.line (65 * n)) (65 * n + 65) ⟨.ok, .none, value, 0⟩) ∧
      (n = 2 → bad n → ends (identifierOps s.line (65 * n)) (65 * n + 65) ⟨.integrityError, .crc8Id, 0, 0⟩)

/-- `SOFT_RESET` run whole on an idle block: attempt n (from 0) begins at sample 17n. After n attempts with presence and a
wrong answer, the next one ends the command: done, absent, or, if it is the third, with the integrity error; `DONE` rises
after the settle delay of an attempt that was taken, and no other attempt has one. `PRESENCE_RETRY` = false, the default.
(That the internal flags are 0 at the end and `ATT` and the checksum registers are kept: the model's, log entry 15.) -/
def Obligations.SoftResetEndsAtTheFirstVerdict : Prop :=
  ∀ (s : State) (n : Nat), s.flags.busy = false → s.cfg.presenceRetry = false → n < 3 →
    let bytes (m : Nat) := answeredBytes s.line (17 * m + 1) 2
    let bad (m : Nat) : Prop := answer s.line (17 * m) = false ∧ bytes m ≠ [0xFB, 0x6E]
    let ends (ops : List (List Event)) (samples : Nat) (host : HostRegs) : Prop :=
      ∃ t, exec .softReset s = .next t ∧
        LineAfter s.cfg.tGap { s.line with traceRev := [], gapDue := false } t.line
          (((List.range n).flatMap fun m => softOps s.line (17 * m)) ++ ops) samples ∧
        t = { s with
          line := t.line, ret := t.ret, shreg := t.shreg, crc8r := 0, crc16r := t.crc16r
          seq := ⟨0, .idle, 0, BitVec.ofNat 2 (n + 1), t.seq.byteCnt, t.seq.bitCnt⟩
          flags := ⟨false, false, false, false, false, false, true⟩
          host := host, session := Session.zero, sha := ShaRegs.zero, res := .none }
    (∀ m, m < n → bad m) →
      (answer s.line (17 * n) = true → ends [resetEvents true] (17 * n + 1) ⟨.deviceNotPresent, .none, 0, 0⟩) ∧
      (answer s.line (17 * n) = false → bytes n = [0xFB, 0x6E] →
        ends (softOps s.line (17 * n) ++ [[.W s.cfg.tSoftSettle.toNat]]) (17 * n + 17) ⟨.ok, .none, 0, 0⟩) ∧
      (n = 2 → bad n → ends (softOps s.line (17 * n)) (17 * n + 17) ⟨.integrityError, .crc16Soft, 0, 0⟩)

/-- `AUTHENTICATE` run whole on an idle block whose line answers presence, a valid identifier, the challenge's echo and two
valid frames at the first attempts: one challenge is drawn, and the MAC frame decides between the trusted bytes and the
authentication failure, which is not retried. (That the internal flags are 0 at the end and the checksum registers, `ATT`
and the counters are kept: the model's, log entry 15.) -/
def Obligations.AuthenticateJudgesTheMac : Prop :=
  ∀ (s : State) (ident : Vector Byte 8) (rbuf : Vector Byte 31),
    let n := s.cfg.nPageRead.count.toNat
    let chal := challengeAnswer s
    let mac := answeredBytes s.line (163 + 8 * n) 22
    s.flags.busy = false →
    answer s.line 0 = false → answeredBytes s.line 1 8 = ident.toList → crc8Bits 0 ident.toList = 0 →
    answer s.line 65 = false → answeredBytes s.line 66 12 = chal.toList →
    answer s.line 162 = false → rbuf.toList = answeredBytes s.line 163 n ++ List.replicate (31 - n) 0 →
    crc16Bits 0 ([0xA5, 0x00, 0x00] ++ answeredBytes s.line 163 n) = 0xB001 → crc16Bits 0 mac = 0xB001 →
    ∃ (t : State) (trusted : BitVec 32), exec .authenticate s = .next t ∧
      (∀ j, j < 4 → trusted.extractLsb' (8 * j) 8 = byteAt rbuf j) ∧
      LineAfter s.cfg.tGap { s.line with traceRev := [], gapDue := false } t.line
        (identifierOps s.line 0 ++ [.C chal] :: challengeOps s.line 65 chal ++ pageOps s.line 162 n ++
          macOps s.line (163 + 8 * n)) (339 + 8 * n) ∧
      t = { s with
        line := t.line, ret := t.ret, shreg := t.shreg, crc8r := 0, crc16r := 0xB001
        seq := ⟨0, .idle, 0, 1, 21, 7⟩
        flags := ⟨false, false, false, false, false, false, true⟩
        host := if mac.take 20 = (expectedMac s.cfg ident chal rbuf).toList then ⟨.ok, .none, 0, trusted⟩
          else ⟨.authenticationFailure, .none, 0, 0⟩
        session := Session.zero, sha := ShaRegs.zero, res := .none, chalReq := false
        env := { s.env with chalScript := s.env.chalScript.tail, chalNo := s.env.chalNo + 1 } }

/-- No success without a matching MAC: where `AUTHENTICATE` ends with `OK`, the line has answered, in this order, an
identifier with CRC8 0, the echo of a challenge drawn in this command, a valid page frame and a valid MAC frame, and the
MAC in it is the one the block expects for that identifier, challenge and page; the trusted output is the page's first four
bytes. Whatever the parameters and whichever attempts succeeded. -/
def Obligations.SuccessNeedsTheExpectedMac : Prop :=
  ∀ s t : State, s.flags.busy = false → exec .authenticate s = .next t → t.host.status = .ok →
    ∃ (i j draw : Nat) (ident : Vector Byte 8) (chal : Vector Byte 12) (rbuf : Vector Byte 31),
      let n := s.cfg.nPageRead.count.toNat
      let mac := answeredBytes s.line (j + 98 + 8 * n) 22
      answer s.line i = false ∧ answeredBytes s.line (i + 1) 8 = ident.toList ∧ crc8Bits 0 ident.toList = 0 ∧
      i + 65 ≤ j ∧ draw < 3 ∧
      chal = challengeBytes ((s.env.chalScript[draw]?).getD (Config.freeChallenge (s.env.chalNo + draw))) ∧
      answer s.line j = false ∧ answeredBytes s.line (j + 1) 12 = chal.toList ∧
      answer s.line (j + 97) = false ∧
      rbuf.toList = answeredBytes s.line (j + 98) n ++ List.replicate (31 - n) 0 ∧
      crc16Bits 0 ([0xA5, 0x00, 0x00] ++ answeredBytes s.line (j + 98) n) = 0xB001 ∧
      crc16Bits 0 mac = 0xB001 ∧ mac.take 20 = (expectedMac s.cfg ident chal rbuf).toList ∧
      (∀ k, k < 4 → t.host.trustedOut.extractLsb' (8 * k) 8 = byteAt rbuf k) ∧
      t.line.sampleNo = s.line.sampleNo + (j + 98 + 8 * n + 176)

/-- A peripheral that is absent ends every command: at the first reset pulse, or, with `PRESENCE_RETRY` = true and three
absent answers, at the third. (The model's: the internal flags 0 and `ATT` kept at the end, log entry 15; `SHREG` and the
counters 0 since the acceptance, log entry 25.) -/
def Obligations.AbsenceEndsEveryCommand : Prop :=
  ∀ s : State, s.flags.busy = false → answer s.line 0 = true →
    ∀ i, i ∈ [Instr.getIdentifier, .authenticate, .softReset] →
      let ends (attempts : Nat) : Prop :=
        ∃ t, exec i s = .next t ∧
          LineAfter s.cfg.tGap { s.line with traceRev := [], gapDue := false } t.line
            (List.replicate attempts (resetEvents true)) attempts ∧
          t = { s with
            line := t.line, ret := 1, shreg := 0, crc8r := 0, crc16r := 0
            seq := ⟨0, .idle, 0, BitVec.ofNat 2 attempts, 0, 0⟩
            flags := ⟨false, false, false, false, false, false, true⟩
            host := ⟨.deviceNotPresent, .none, 0, 0⟩
            session := Session.zero, sha := ShaRegs.zero, res := .none }
      (s.cfg.presenceRetry = false → ends 1) ∧
      (s.cfg.presenceRetry = true → answer s.line 1 = true → answer s.line 2 = true → ends 3)

/-- Every command of an idle block runs to its end, whatever the line and the challenge source answer: idle, not busy, done,
nothing of the session left, with an outcome, of a kind the command can have. (The registers cleared are R48's; that the
internal flags are 0 too is the model's, log entry 15.) -/
def Obligations.EveryCommandEndsWithAnOutcome : Prop :=
  ∀ s : State, s.flags.busy = false →
    ∀ i cmd, (i, cmd) ∈ [(Instr.getIdentifier, (1 : BitVec 2)), (.authenticate, 2), (.softReset, 3)] →
      ∃ t o, exec i s = .next t ∧ t.seq.phase = .idle ∧ t.seq.cmd = 0 ∧ t.flags.busy = false ∧ t.flags.done = true ∧
        sessionCleared t ∧ t.line.drv = false ∧ outcomeOf cmd t = some o ∧
        (match o with
          | .identifier _ => cmd = 1
          | .trustedBytes _ => cmd = 2
          | .done => cmd = 3
          | .deviceNotPresent => True
          | .integrityError c => c ≠ .none ∧ (c = .crc8Id → cmd ≠ 3) ∧ (c = .crc16Soft ↔ cmd = 3)
          | .authenticationFailure => cmd = 2)

/-- No run is longer than R318 says (`T_GAP` = 0, the default page length and settle time), none draws more than three
challenges, and only `AUTHENTICATE` draws any. (R318 is an inference the spec marks as its own: "derived: from rule R316".) -/
def Obligations.NoRunIsLongerThanTheLongest : Prop :=
  ∀ s : State, s.flags.busy = false → s.cfg.tGap = .fixed 0 → s.cfg.nPageRead = .read31 →
    s.cfg.tSoftSettle = 100000 →
    ∀ i us draws, (i, us, draws) ∈ [(Instr.getIdentifier, 18000, 0), (.authenticate, 169200, 3), (.softReset, 119680, 0)] →
      ∃ t, exec i s = .next t ∧ duration (traceOf t) ≤ us ∧ drawsIn (traceOf t) ≤ draws ∧
        t.env.chalNo = s.env.chalNo + drawsIn (traceOf t)

/-- No outcome depends on time: other gaps, another settle time, another clock give the same final state but for the line's
trace, its gap number and the parameters. (R320 is an inference the spec marks as its own.) -/
def Obligations.NoOutcomeDependsOnTime : Prop :=
  ∀ (s t : State) (g : Config.Gap) (settle : BitVec 17) (clk : Nat), s.flags.busy = false →
    ∀ i, i ∈ [Instr.getIdentifier, .authenticate, .softReset] → exec i s = .next t →
      let other : Config.Params := { s.cfg with tGap := g, tSoftSettle := settle, clkPerUs := clk }
      ∃ u, exec i { s with cfg := other } = .next u ∧
        u = { t with cfg := other, line := { t.line with traceRev := u.line.traceRev, gapNo := u.line.gapNo } }

/-- Nothing of an earlier command persists: the final state of a command is a function of the command, the answers of the line
and of the challenge source, and the parameters. Two idle blocks with the same parameters, whose line and challenge source
answer the same, end the same command in the same state, whatever their registers held before; what the host does next
stays each one's own, and `chal_req`, 0 in both, stays so. (R320 is an inference the spec marks as its own; that `SHREG` and
the counters do not persist is log entry 25.) -/
def Obligations.NothingPersistsBetweenCommands : Prop :=
  ∀ s u t : State, s.flags.busy = false → u.flags.busy = false → u.cfg = s.cfg →
    u.line.script = s.line.script → u.line.sampleNo = s.line.sampleNo → u.line.gapNo = s.line.gapNo →
    u.env.chalScript = s.env.chalScript → u.env.chalNo = s.env.chalNo →
    ∀ i, i ∈ [Instr.getIdentifier, .authenticate, .softReset] → exec i s = .next t →
      ∃ v, exec i u = .next v ∧
        v = { t with chalReq := v.chalReq, env := { t.env with inputs := u.env.inputs } } ∧
        (u.chalReq = s.chalReq → v.chalReq = t.chalReq)

/-- The line tells nothing of the secret: with another secret template, identifier offset, extraction, MAC layout and hash
output, a command puts the very same events on the line and draws the same challenges; all that can differ is whether the
MAC was accepted. (That the flag `MAC_OK` does not differ at the end, since `finish` clears it, is the model's, log entry
15.) -/
def Obligations.TheLineTellsNothingOfTheSecret : Prop :=
  ∀ (s t : State) (other : Config.Params), s.flags.busy = false →
    other = { s.cfg with
      secretTemplate := other.secretTemplate, secretIdOffset := other.secretIdOffset
      secretExtract := other.secretExtract, macLayout := other.macLayout, sha1FeedForward := other.sha1FeedForward } →
    ∀ i, i ∈ [Instr.getIdentifier, .authenticate, .softReset] → exec i s = .next t →
      ∃ u, exec i { s with cfg := other } = .next u ∧ u = { t with cfg := other, host := u.host } ∧
        (u.host = t.host ∨
          (i = .authenticate ∧
            ((t.host.status = .ok ∧ u.host = ⟨.authenticationFailure, .none, 0, 0⟩) ∨
              (u.host.status = .ok ∧ t.host = ⟨.authenticationFailure, .none, 0, 0⟩))))

/-! ### The sequencer's tables (R193, R253) -/

/-- `ID_PHASE`: its steps, the gate, the check, and where they lead. -/
def Obligations.IdentifierPhaseFollowsTheTables : Prop :=
  Transition .idPhase 0 (fun _ => .reset) (fun t => t.flags.present = true) (fun t => moved .idPhase 1 t.seq.att t) ∧
  Transition .idPhase 0 (fun _ => .reset) (fun t => t.flags.present = false ∧ t.cfg.presenceRetry = false)
    (finishing .deviceNotPresent .none) ∧
  Transition .idPhase 1 (fun _ => .wbyte 0x33) (fun _ => True) (fun t => moved .idPhase 2 t.seq.att t) ∧
  Transition .idPhase 2 (fun _ => .rblock .ident 8) (fun _ => True) (fun t => moved .idPhase 3 t.seq.att t) ∧
  Transition .idPhase 3 (fun _ => .crc8Check) (fun t => t.flags.crc8Ok = false ∧ t.seq.att.toNat < 3)
    (fun t => moved .idPhase 0 (t.seq.att + 1) t) ∧
  Transition .idPhase 3 (fun _ => .crc8Check) (fun t => t.flags.crc8Ok = false ∧ t.seq.att = 3)
    (finishing .integrityError .crc8Id) ∧
  Transition .idPhase 3 (fun _ => .crc8Check) (fun t => t.flags.crc8Ok = true ∧ t.seq.cmd = 1)
    (fun t => moved (.finish .ok .none .ident) 0 t.seq.att t) ∧
  Transition .idPhase 3 (fun _ => .crc8Check) (fun t => t.flags.crc8Ok = true ∧ t.seq.cmd = 2)
    (fun t => moved .derive 0 t.seq.att t)

/-- `DERIVE` and `AUTH_CHALLENGE`: the steps, the gate, the check, and where they lead; every authentication attempt begins
with a fresh draw. -/
def Obligations.ChallengePhaseFollowsTheTables : Prop :=
  Transition .derive 0 (fun _ => .deriveSecret) (fun _ => True)
    (fun t => moved .authChallenge 0 1 (drawChallenge t)) ∧
  Transition .authChallenge 0 (fun _ => .reset) (fun t => t.flags.present = true)
    (fun t => moved .authChallenge 1 t.seq.att t) ∧
  Transition .authChallenge 0 (fun _ => .reset) (fun t => t.flags.present = false ∧ t.cfg.presenceRetry = false)
    (finishing .deviceNotPresent .none) ∧
  Transition .authChallenge 1 (fun _ => .wbyte 0xCC) (fun _ => True) (fun t => moved .authChallenge 2 t.seq.att t) ∧
  Transition .authChallenge 2 (fun _ => .wbyte 0x0F) (fun _ => True) (fun t => moved .authChallenge 3 t.seq.att t) ∧
  Transition .authChallenge 3 (fun _ => .wblock (.buf .chal) 12) (fun _ => True)
    (fun t => moved .authChallenge 4 t.seq.att t) ∧
  Transition .authChallenge 4 (fun _ => .rblock .echo 12) (fun _ => True)
    (fun t => moved .authChallenge 5 t.seq.att t) ∧
  Transition .authChallenge 5 (fun _ => .echoCheck) (fun t => t.flags.echoOk = false ∧ t.seq.att.toNat < 3)
    (fun t => moved .authChallenge 0 (t.seq.att + 1) (drawChallenge t)) ∧
  Transition .authChallenge 5 (fun _ => .echoCheck) (fun t => t.flags.echoOk = false ∧ t.seq.att = 3)
    (finishing .integrityError .echoMismatch) ∧
  Transition .authChallenge 5 (fun _ => .echoCheck) (fun t => t.flags.echoOk = true)
    (fun t => moved .authPage 0 t.seq.att t)

/-- `AUTH_PAGE`: the steps, the gate, the two checks, and where they lead: a failed check leads back to a fresh challenge;
after both frames the MAC is computed and compared. `AUTH_VERIFY`: a mismatch ends the command at once, whatever the attempt;
a match leads to the success with the trusted bytes. -/
def Obligations.PagePhaseFollowsTheTables : Prop :=
  Transition .authPage 0 (fun _ => .reset) (fun t => t.flags.present = true) (fun t => moved .authPage 1 t.seq.att t) ∧
  Transition .authPage 0 (fun _ => .reset) (fun t => t.flags.present = false ∧ t.cfg.presenceRetry = false)
    (finishing .deviceNotPresent .none) ∧
  Transition .authPage 1 (fun _ => .wbyte 0xCC) (fun _ => True) (fun t => moved .authPage 2 t.seq.att t) ∧
  Transition .authPage 2 (fun _ => .wbyte 0xA5) (fun _ => True) (fun t => moved .authPage 3 t.seq.att t) ∧
  Transition .authPage 3 (fun _ => .wbyte 0x00) (fun _ => True) (fun t => moved .authPage 4 t.seq.att t) ∧
  Transition .authPage 4 (fun _ => .wbyte 0x00) (fun _ => True) (fun t => moved .authPage 5 t.seq.att t) ∧
  Transition .authPage 5 (fun p => .rblock .rbuf p.nPageRead.count) (fun _ => True)
    (fun t => moved .authPage 6 t.seq.att t) ∧
  Transition .authPage 6 (fun _ => .crc16Check .page) (fun t => t.flags.crc16Ok = true)
    (fun t => moved .authPage 7 t.seq.att t) ∧
  Transition .authPage 7 (fun _ => .delay 2000) (fun _ => True) (fun t => moved .authPage 8 t.seq.att t) ∧
  Transition .authPage 8 (fun _ => .rblock .mbuf 22) (fun _ => True) (fun t => moved .authPage 9 t.seq.att t) ∧
  (∀ position frame c, (position, frame, c) ∈ [(6, Frame.page, Cause.crc16Page), (9, .mac, .crc16Mac)] →
    Transition .authPage position (fun _ => .crc16Check frame)
      (fun t => t.flags.crc16Ok = false ∧ t.seq.att.toNat < 3)
      (fun t => moved .authChallenge 0 (t.seq.att + 1) (drawChallenge t)) ∧
    Transition .authPage position (fun _ => .crc16Check frame) (fun t => t.flags.crc16Ok = false ∧ t.seq.att = 3)
      (finishing .integrityError c)) ∧
  (∀ s t u v : State, inputIgnored s = true → s.seq.phase = .authPage → s.seq.step = 9 →
    exec (.crc16Check .mac) (popInput s) = .next t → t.flags.crc16Ok = true →
    exec .computeMac t = .next u → exec .verifyMac u = .next v →
    step s = .next (moved .authVerify 0 v.seq.att v)) ∧
  (∀ s : State, inputIgnored s = true → s.seq.phase = .authVerify →
    (s.flags.macOk = true →
      step s = .next (moved (.finish .ok .none .trusted) 0 s.seq.att (popInput s))) ∧
    (s.flags.macOk = false → step s = .next (finishing .authenticationFailure .none (popInput s))))

/-- `SOFT`: the steps, the gate, the check, and where they lead. -/
def Obligations.SoftResetPhaseFollowsTheTables : Prop :=
  Transition .soft 0 (fun _ => .reset) (fun t => t.flags.present = true) (fun t => moved .soft 1 t.seq.att t) ∧
  Transition .soft 0 (fun _ => .reset) (fun t => t.flags.present = false ∧ t.cfg.presenceRetry = false)
    (finishing .deviceNotPresent .none) ∧
  Transition .soft 1 (fun _ => .wbyte 0xCC) (fun _ => True) (fun t => moved .soft 2 t.seq.att t) ∧
  Transition .soft 2 (fun _ => .wblock (.const [0x55, 0x00, 0x00, 0xFF, 0xFF, 0xFF, 0xFF]) 7) (fun _ => True)
    (fun t => moved .soft 3 t.seq.att t) ∧
  Transition .soft 3 (fun _ => .rblock .mbuf 2) (fun _ => True) (fun t => moved .soft 4 t.seq.att t) ∧
  Transition .soft 4 (fun _ => .crc16Check .soft) (fun t => t.flags.crc16Ok = true)
    (fun t => moved .soft 5 t.seq.att t) ∧
  Transition .soft 4 (fun _ => .crc16Check .soft) (fun t => t.flags.crc16Ok = false ∧ t.seq.att.toNat < 3)
    (fun t => moved .soft 0 (t.seq.att + 1) t) ∧
  Transition .soft 4 (fun _ => .crc16Check .soft) (fun t => t.flags.crc16Ok = false ∧ t.seq.att = 3)
    (finishing .integrityError .crc16Soft) ∧
  Transition .soft 5 (fun p => .delay p.tSoftSettle) (fun _ => True)
    (fun t => moved (.finish .ok .none .nothing) 0 t.seq.att t)

/-- `finish(status, cause) with output`: the outcome registers are written, the session is cleared, the block is idle,
`BUSY` falls and `DONE` rises; byte j of an output is byte j of what it shows. (That the five internal flags are cleared and
`CRC8R`, `CRC16R`, `SHREG`, `ATT` and the counters are kept is the model's, log entry 15, from 95_test_vectors.md L3: "all
session registers (`ID`, `CHAL`, `ECHO`, `RBUF`, `MBUF`, `SECRET`, `MACH`, flags) cleared to 0 by `finish`".) -/
def Obligations.FinishWritesTheOutcomeAndClears : Prop :=
  ∀ (s : State) (st : Status) (c : Cause) (out : Output), inputIgnored s = true → s.seq.phase = .finish st c out →
    ∃ t, step s = .next t ∧
      t = { popInput s with
        host := t.host
        session := Session.zero
        sha := ShaRegs.zero
        seq := { s.seq with cmd := 0, phase := .idle, step := 0 }
        flags := ⟨false, false, false, false, false, false, true⟩
        res := .none } ∧
      t.host = { s.host with status := st, cause := c, idOut := t.host.idOut, trustedOut := t.host.trustedOut } ∧
      (if out = .ident then ∀ j, j < 8 → t.host.idOut.extractLsb' (8 * j) 8 = byteAt s.session.ident j
        else t.host.idOut = s.host.idOut) ∧
      (if out = .trusted then ∀ j, j < 4 → t.host.trustedOut.extractLsb' (8 * j) 8 = byteAt s.session.rbuf j
        else t.host.trustedOut = s.host.trustedOut)

/-- With `PRESENCE_RETRY` = true absence uses up an attempt like an integrity failure: at every gate the unit begins its
next attempt while one is left, and ends the command with absence when none is. (Where the next attempt begins: log entry
20.) -/
def Obligations.PresenceRetryUsesUpAttempts : Prop :=
  ∀ phase, phase ∈ [Phase.idPhase, .authChallenge, .authPage, .soft] →
    Transition phase 0 (fun _ => .reset)
      (fun t => t.flags.present = false ∧ t.cfg.presenceRetry = true ∧ t.seq.att.toNat < 3)
      (fun t =>
        if phase = .authChallenge ∨ phase = .authPage then moved .authChallenge 0 (t.seq.att + 1) (drawChallenge t)
        else moved phase 0 (t.seq.att + 1) t) ∧
    Transition phase 0 (fun _ => .reset)
      (fun t => t.flags.present = false ∧ t.cfg.presenceRetry = true ∧ t.seq.att = 3)
      (finishing .deviceNotPresent .none)

/-! ### Every run -/

/-- A command started at the host port and run step by step ends in the state its pseudocode (R240 to R250) gives, whatever
the host asks for meanwhile; until then the block is busy; and it takes at most 64 steps. -/
def Obligations.StartedCommandRunsAsItsPseudocode : Prop :=
  ∀ (s u : State) (cmd : BitVec 2) (rest : List Input) (i : Instr),
    s.env.inputs = .start cmd :: rest → hostCalm rest → s.flags.busy = false → decodeHc cmd = i → cmd ≠ 0 →
    exec i s = .next u →
    ∃ k t, 1 < k ∧ k ≤ 64 ∧ Sys2Proof.core.run k s = .next t ∧ withoutInputs t = withoutInputs u ∧
      ∀ j, 0 < j → j < k → ∃ v, Sys2Proof.core.run j s = .next v ∧ v.flags.busy = true

/-- Every running command finishes: from every state of the invariant in which a command runs, whatever the line answers, at
most 63 steps lead to the end of the command. -/
def Obligations.EveryRunningCommandFinishes : Prop :=
  ∀ s : State, Inv s → s.flags.busy = true → hostCalm s.env.inputs →
    ∃ k t, 0 < k ∧ k ≤ 63 ∧ Sys2Proof.core.run k s = .next t ∧ t.flags.busy = false ∧ t.flags.done = true ∧
      t.seq.phase = .idle ∧ t.host.status ≠ .none

/-- The reset state meets both invariants. -/
def Obligations.ResetMeetsTheInvariants : Prop := Inv State.reset ∧ ClearedWhenIdle State.reset

/-- Every step keeps the invariant, whatever the host does: `SEQ` stays where R193 and R253 let it stand, the outcome
registers stay consistent with `BUSY` and `DONE`, and between two steps the line is released, the timer is 0, no challenge
is asked for and the trace is in its form. -/
def Obligations.StepKeepsTheInvariant : Prop := ∀ s t : State, Inv s → step s = .next t → Inv t

/-- From a state of the invariant a step stops only on a code that is none: no fault is reached. -/
def Obligations.NoFaultIsReached : Prop :=
  ∀ s : State, Inv s →
    (∃ t, step s = .next t) ∨ ∃ c rest r, s.env.inputs = .op c :: rest ∧ step s = .refused (.undecodable r)

/-- As long as the host port and `rst` alone drive the block, an idle block holds nothing of any session. (That the internal
flags are 0 in an idle block is the model's, log entry 15; R48 does not name them at a command's end.) -/
def Obligations.StepKeepsIdleBlocksCleared : Prop :=
  ∀ s t : State, ClearedWhenIdle s → step s = .next t → ClearedWhenIdle t

/-! ### The output ports -/

/-- What the host sees: the five codes of `STATUS` and the six of `CAUSE`, no other code on either port, the register behind
each port, and the interrupt request, which is the level `done`. Until the next request is accepted the ports of an idle
block keep their values, and while a command runs the outcome ports read 0 and no interrupt is requested. (That status and
cause are types of the named values: log entry 24; in which states `line_drive_low` and `chal_req` are seen: log entry 11.) -/
def Obligations.PortsShowTheOutcomeRegisters : Prop :=
  statusCode .none = 0 ∧ statusCode .ok = 1 ∧ statusCode .deviceNotPresent = 2 ∧ statusCode .integrityError = 3 ∧
  statusCode .authenticationFailure = 4 ∧
  causeCode .none = 0 ∧ causeCode .crc8Id = 1 ∧ causeCode .echoMismatch = 2 ∧ causeCode .crc16Page = 3 ∧
  causeCode .crc16Mac = 4 ∧ causeCode .crc16Soft = 5 ∧
  (∀ s : State,
    (ports s).busy = s.flags.busy ∧ (ports s).done = s.flags.done ∧
    (ports s).status = statusCode s.host.status ∧ (ports s).cause = causeCode s.host.cause ∧
    (ports s).idOut = s.host.idOut ∧ (ports s).trustedOut = s.host.trustedOut ∧
    (ports s).lineDriveLow = s.line.drv ∧ (ports s).chalReq = s.chalReq ∧
    (ports s).status ≤ 4 ∧ (ports s).cause ≤ 5 ∧ interruptRequest s = (ports s).done) ∧
  (∀ s : State, s.seq.phase = .idle → inputIgnored s = true → ∃ t, step s = .next t ∧ ports t = ports s) ∧
  (∀ s : State, Inv s → (ports s).busy = true →
    (ports s).status = 0 ∧ (ports s).cause = 0 ∧ (ports s).idOut = 0 ∧ (ports s).trustedOut = 0 ∧
    interruptRequest s = false)
end

