-- ==== Sys2Proof/Laws/State.lean ====
section
/-! SUPPORT. What each operation on the state leaves in each field: one lemma per operation and field, true by
definition, so that no later proof unfolds a record update. -/

namespace Sys2Proof.Machine

/-! ### `doReset` -/

@[simp] theorem doReset_cfg (s : State) : (doReset s).cfg = s.cfg := rfl
@[simp] theorem doReset_session (s : State) : (doReset s).session = s.session := rfl
@[simp] theorem doReset_seq (s : State) : (doReset s).seq = s.seq := rfl
@[simp] theorem doReset_shreg (s : State) : (doReset s).shreg = s.shreg := rfl
@[simp] theorem doReset_flags (s : State) : (doReset s).flags = { s.flags with present := presentOf (resetLevel s.cfg.tGap s.line) } := rfl
@[simp] theorem doReset_crc8r (s : State) : (doReset s).crc8r = s.crc8r := rfl
@[simp] theorem doReset_crc16r (s : State) : (doReset s).crc16r = s.crc16r := rfl
@[simp] theorem doReset_sha (s : State) : (doReset s).sha = s.sha := rfl
@[simp] theorem doReset_host (s : State) : (doReset s).host = s.host := rfl
@[simp] theorem doReset_chalReq (s : State) : (doReset s).chalReq = s.chalReq := rfl
@[simp] theorem doReset_line (s : State) : (doReset s).line = resetLine s.cfg.tGap s.line := rfl
@[simp] theorem doReset_env (s : State) : (doReset s).env = s.env := rfl
@[simp] theorem doReset_ret (s : State) : (doReset s).ret = bitValue (resetLevel s.cfg.tGap s.line) := rfl
@[simp] theorem doReset_res (s : State) : (doReset s).res = s.res := rfl

/-! ### `doWbit` -/

@[simp] theorem doWbit_cfg (b : Bool) (s : State) : (doWbit b s).cfg = s.cfg := rfl
@[simp] theorem doWbit_session (b : Bool) (s : State) : (doWbit b s).session = s.session := rfl
@[simp] theorem doWbit_seq (b : Bool) (s : State) : (doWbit b s).seq = s.seq := rfl
@[simp] theorem doWbit_shreg (b : Bool) (s : State) : (doWbit b s).shreg = s.shreg := rfl
@[simp] theorem doWbit_flags (b : Bool) (s : State) : (doWbit b s).flags = s.flags := rfl
@[simp] theorem doWbit_crc8r (b : Bool) (s : State) : (doWbit b s).crc8r = s.crc8r := rfl
@[simp] theorem doWbit_crc16r (b : Bool) (s : State) : (doWbit b s).crc16r = s.crc16r := rfl
@[simp] theorem doWbit_sha (b : Bool) (s : State) : (doWbit b s).sha = s.sha := rfl
@[simp] theorem doWbit_host (b : Bool) (s : State) : (doWbit b s).host = s.host := rfl
@[simp] theorem doWbit_chalReq (b : Bool) (s : State) : (doWbit b s).chalReq = s.chalReq := rfl
@[simp] theorem doWbit_line (b : Bool) (s : State) : (doWbit b s).line = wbitLine s.cfg.tGap b s.line := rfl
@[simp] theorem doWbit_env (b : Bool) (s : State) : (doWbit b s).env = s.env := rfl
@[simp] theorem doWbit_ret (b : Bool) (s : State) : (doWbit b s).ret = s.ret := rfl
@[simp] theorem doWbit_res (b : Bool) (s : State) : (doWbit b s).res = s.res := rfl

/-! ### `doRbit` -/

@[simp] theorem doRbit_cfg (s : State) : (doRbit s).cfg = s.cfg := rfl
@[simp] theorem doRbit_session (s : State) : (doRbit s).session = s.session := rfl
@[simp] theorem doRbit_seq (s : State) : (doRbit s).seq = s.seq := rfl
@[simp] theorem doRbit_shreg (s : State) : (doRbit s).shreg = s.shreg := rfl
@[simp] theorem doRbit_flags (s : State) : (doRbit s).flags = s.flags := rfl
@[simp] theorem doRbit_crc8r (s : State) : (doRbit s).crc8r = s.crc8r := rfl
@[simp] theorem doRbit_crc16r (s : State) : (doRbit s).crc16r = s.crc16r := rfl
@[simp] theorem doRbit_sha (s : State) : (doRbit s).sha = s.sha := rfl
@[simp] theorem doRbit_host (s : State) : (doRbit s).host = s.host := rfl
@[simp] theorem doRbit_chalReq (s : State) : (doRbit s).chalReq = s.chalReq := rfl
@[simp] theorem doRbit_line (s : State) : (doRbit s).line = rbitLine s.cfg.tGap s.line := rfl
@[simp] theorem doRbit_env (s : State) : (doRbit s).env = s.env := rfl
@[simp] theorem doRbit_ret (s : State) : (doRbit s).ret = bitValue (rbitLevel s.cfg.tGap s.line) := rfl
@[simp] theorem doRbit_res (s : State) : (doRbit s).res = s.res := rfl

/-! ### `doDelay` -/

@[simp] theorem doDelay_cfg (n : BitVec 17) (s : State) : (doDelay n s).cfg = s.cfg := rfl
@[simp] theorem doDelay_session (n : BitVec 17) (s : State) : (doDelay n s).session = s.session := rfl
@[simp] theorem doDelay_seq (n : BitVec 17) (s : State) : (doDelay n s).seq = s.seq := rfl
@[simp] theorem doDelay_shreg (n : BitVec 17) (s : State) : (doDelay n s).shreg = s.shreg := rfl
@[simp] theorem doDelay_flags (n : BitVec 17) (s : State) : (doDelay n s).flags = s.flags := rfl
@[simp] theorem doDelay_crc8r (n : BitVec 17) (s : State) : (doDelay n s).crc8r = s.crc8r := rfl
@[simp] theorem doDelay_crc16r (n : BitVec 17) (s : State) : (doDelay n s).crc16r = s.crc16r := rfl
@[simp] theorem doDelay_sha (n : BitVec 17) (s : State) : (doDelay n s).sha = s.sha := rfl
@[simp] theorem doDelay_host (n : BitVec 17) (s : State) : (doDelay n s).host = s.host := rfl
@[simp] theorem doDelay_chalReq (n : BitVec 17) (s : State) : (doDelay n s).chalReq = s.chalReq := rfl
@[simp] theorem doDelay_line (n : BitVec 17) (s : State) : (doDelay n s).line = delayLine s.cfg.tGap n s.line := rfl
@[simp] theorem doDelay_env (n : BitVec 17) (s : State) : (doDelay n s).env = s.env := rfl
@[simp] theorem doDelay_ret (n : BitVec 17) (s : State) : (doDelay n s).ret = s.ret := rfl
@[simp] theorem doDelay_res (n : BitVec 17) (s : State) : (doDelay n s).res = s.res := rfl

/-! ### `drawChallenge` -/

@[simp] theorem drawChallenge_cfg (s : State) : (drawChallenge s).cfg = s.cfg := rfl
@[simp] theorem drawChallenge_session (s : State) : (drawChallenge s).session = { s.session with chal := challengeAnswer s } := rfl
@[simp] theorem drawChallenge_seq (s : State) : (drawChallenge s).seq = s.seq := rfl
@[simp] theorem drawChallenge_shreg (s : State) : (drawChallenge s).shreg = s.shreg := rfl
@[simp] theorem drawChallenge_flags (s : State) : (drawChallenge s).flags = s.flags := rfl
@[simp] theorem drawChallenge_crc8r (s : State) : (drawChallenge s).crc8r = s.crc8r := rfl
@[simp] theorem drawChallenge_crc16r (s : State) : (drawChallenge s).crc16r = s.crc16r := rfl
@[simp] theorem drawChallenge_sha (s : State) : (drawChallenge s).sha = s.sha := rfl
@[simp] theorem drawChallenge_host (s : State) : (drawChallenge s).host = s.host := rfl
@[simp] theorem drawChallenge_chalReq (s : State) : (drawChallenge s).chalReq = false := rfl
@[simp] theorem drawChallenge_line (s : State) : (drawChallenge s).line = { s.line with traceRev := .C (challengeAnswer s) :: s.line.traceRev } := rfl
@[simp] theorem drawChallenge_env (s : State) : (drawChallenge s).env = { s.env with chalScript := s.env.chalScript.tail, chalNo := s.env.chalNo + 1 } := rfl
@[simp] theorem drawChallenge_ret (s : State) : (drawChallenge s).ret = s.ret := rfl
@[simp] theorem drawChallenge_res (s : State) : (drawChallenge s).res = s.res := rfl

/-! ### `raiseFailure` -/

@[simp] theorem raiseFailure_cfg (f : Failure) (s : State) : (raiseFailure f s).cfg = s.cfg := rfl
@[simp] theorem raiseFailure_session (f : Failure) (s : State) : (raiseFailure f s).session = s.session := rfl
@[simp] theorem raiseFailure_seq (f : Failure) (s : State) : (raiseFailure f s).seq = s.seq := rfl
@[simp] theorem raiseFailure_shreg (f : Failure) (s : State) : (raiseFailure f s).shreg = s.shreg := rfl
@[simp] theorem raiseFailure_flags (f : Failure) (s : State) : (raiseFailure f s).flags = s.flags := rfl
@[simp] theorem raiseFailure_crc8r (f : Failure) (s : State) : (raiseFailure f s).crc8r = s.crc8r := rfl
@[simp] theorem raiseFailure_crc16r (f : Failure) (s : State) : (raiseFailure f s).crc16r = s.crc16r := rfl
@[simp] theorem raiseFailure_sha (f : Failure) (s : State) : (raiseFailure f s).sha = s.sha := rfl
@[simp] theorem raiseFailure_host (f : Failure) (s : State) : (raiseFailure f s).host = s.host := rfl
@[simp] theorem raiseFailure_chalReq (f : Failure) (s : State) : (raiseFailure f s).chalReq = s.chalReq := rfl
@[simp] theorem raiseFailure_line (f : Failure) (s : State) : (raiseFailure f s).line = s.line := rfl
@[simp] theorem raiseFailure_env (f : Failure) (s : State) : (raiseFailure f s).env = s.env := rfl
@[simp] theorem raiseFailure_ret (f : Failure) (s : State) : (raiseFailure f s).ret = s.ret := rfl
@[simp] theorem raiseFailure_res (f : Failure) (s : State) : (raiseFailure f s).res = .failed f := rfl

/-! ### `succeed` -/

@[simp] theorem succeed_cfg (s : State) : (succeed s).cfg = s.cfg := rfl
@[simp] theorem succeed_session (s : State) : (succeed s).session = s.session := rfl
@[simp] theorem succeed_seq (s : State) : (succeed s).seq = s.seq := rfl
@[simp] theorem succeed_shreg (s : State) : (succeed s).shreg = s.shreg := rfl
@[simp] theorem succeed_flags (s : State) : (succeed s).flags = s.flags := rfl
@[simp] theorem succeed_crc8r (s : State) : (succeed s).crc8r = s.crc8r := rfl
@[simp] theorem succeed_crc16r (s : State) : (succeed s).crc16r = s.crc16r := rfl
@[simp] theorem succeed_sha (s : State) : (succeed s).sha = s.sha := rfl
@[simp] theorem succeed_host (s : State) : (succeed s).host = s.host := rfl
@[simp] theorem succeed_chalReq (s : State) : (succeed s).chalReq = s.chalReq := rfl
@[simp] theorem succeed_line (s : State) : (succeed s).line = s.line := rfl
@[simp] theorem succeed_env (s : State) : (succeed s).env = s.env := rfl
@[simp] theorem succeed_ret (s : State) : (succeed s).ret = s.ret := rfl
@[simp] theorem succeed_res (s : State) : (succeed s).res = .ok := rfl

/-! ### `goTo` -/

@[simp] theorem goTo_cfg (p : Phase) (s : State) : (goTo p s).cfg = s.cfg := rfl
@[simp] theorem goTo_session (p : Phase) (s : State) : (goTo p s).session = s.session := rfl
@[simp] theorem goTo_seq (p : Phase) (s : State) : (goTo p s).seq = { s.seq with phase := p, step := 0 } := rfl
@[simp] theorem goTo_shreg (p : Phase) (s : State) : (goTo p s).shreg = s.shreg := rfl
@[simp] theorem goTo_flags (p : Phase) (s : State) : (goTo p s).flags = s.flags := rfl
@[simp] theorem goTo_crc8r (p : Phase) (s : State) : (goTo p s).crc8r = s.crc8r := rfl
@[simp] theorem goTo_crc16r (p : Phase) (s : State) : (goTo p s).crc16r = s.crc16r := rfl
@[simp] theorem goTo_sha (p : Phase) (s : State) : (goTo p s).sha = s.sha := rfl
@[simp] theorem goTo_host (p : Phase) (s : State) : (goTo p s).host = s.host := rfl
@[simp] theorem goTo_chalReq (p : Phase) (s : State) : (goTo p s).chalReq = s.chalReq := rfl
@[simp] theorem goTo_line (p : Phase) (s : State) : (goTo p s).line = s.line := rfl
@[simp] theorem goTo_env (p : Phase) (s : State) : (goTo p s).env = s.env := rfl
@[simp] theorem goTo_ret (p : Phase) (s : State) : (goTo p s).ret = s.ret := rfl
@[simp] theorem goTo_res (p : Phase) (s : State) : (goTo p s).res = s.res := rfl

/-! ### `setAtt` -/

@[simp] theorem setAtt_cfg (n : BitVec 2) (s : State) : (setAtt n s).cfg = s.cfg := rfl
@[simp] theorem setAtt_session (n : BitVec 2) (s : State) : (setAtt n s).session = s.session := rfl
@[simp] theorem setAtt_seq (n : BitVec 2) (s : State) : (setAtt n s).seq = { s.seq with att := n } := rfl
@[simp] theorem setAtt_shreg (n : BitVec 2) (s : State) : (setAtt n s).shreg = s.shreg := rfl
@[simp] theorem setAtt_flags (n : BitVec 2) (s : State) : (setAtt n s).flags = s.flags := rfl
@[simp] theorem setAtt_crc8r (n : BitVec 2) (s : State) : (setAtt n s).crc8r = s.crc8r := rfl
@[simp] theorem setAtt_crc16r (n : BitVec 2) (s : State) : (setAtt n s).crc16r = s.crc16r := rfl
@[simp] theorem setAtt_sha (n : BitVec 2) (s : State) : (setAtt n s).sha = s.sha := rfl
@[simp] theorem setAtt_host (n : BitVec 2) (s : State) : (setAtt n s).host = s.host := rfl
@[simp] theorem setAtt_chalReq (n : BitVec 2) (s : State) : (setAtt n s).chalReq = s.chalReq := rfl
@[simp] theorem setAtt_line (n : BitVec 2) (s : State) : (setAtt n s).line = s.line := rfl
@[simp] theorem setAtt_env (n : BitVec 2) (s : State) : (setAtt n s).env = s.env := rfl
@[simp] theorem setAtt_ret (n : BitVec 2) (s : State) : (setAtt n s).ret = s.ret := rfl
@[simp] theorem setAtt_res (n : BitVec 2) (s : State) : (setAtt n s).res = s.res := rfl

/-! ### `advance` -/

@[simp] theorem advance_cfg (s : State) : (advance s).cfg = s.cfg := rfl
@[simp] theorem advance_session (s : State) : (advance s).session = s.session := rfl
@[simp] theorem advance_seq (s : State) : (advance s).seq = { s.seq with step := s.seq.step + 1 } := rfl
@[simp] theorem advance_shreg (s : State) : (advance s).shreg = s.shreg := rfl
@[simp] theorem advance_flags (s : State) : (advance s).flags = s.flags := rfl
@[simp] theorem advance_crc8r (s : State) : (advance s).crc8r = s.crc8r := rfl
@[simp] theorem advance_crc16r (s : State) : (advance s).crc16r = s.crc16r := rfl
@[simp] theorem advance_sha (s : State) : (advance s).sha = s.sha := rfl
@[simp] theorem advance_host (s : State) : (advance s).host = s.host := rfl
@[simp] theorem advance_chalReq (s : State) : (advance s).chalReq = s.chalReq := rfl
@[simp] theorem advance_line (s : State) : (advance s).line = s.line := rfl
@[simp] theorem advance_env (s : State) : (advance s).env = s.env := rfl
@[simp] theorem advance_ret (s : State) : (advance s).ret = s.ret := rfl
@[simp] theorem advance_res (s : State) : (advance s).res = s.res := rfl

/-! ### `accept` -/

@[simp] theorem accept_cfg (c : BitVec 2) (s : State) : (accept c s).cfg = s.cfg := rfl
@[simp] theorem accept_session (c : BitVec 2) (s : State) : (accept c s).session = Session.zero := rfl
@[simp] theorem accept_seq (c : BitVec 2) (s : State) : (accept c s).seq = ⟨c, firstPhase c, 0, 1, 0, 0⟩ := rfl
@[simp] theorem accept_shreg (c : BitVec 2) (s : State) : (accept c s).shreg = 0 := rfl
@[simp] theorem accept_flags (c : BitVec 2) (s : State) : (accept c s).flags = { clearInternalFlags s.flags with busy := true, done := false } := rfl
@[simp] theorem accept_crc8r (c : BitVec 2) (s : State) : (accept c s).crc8r = 0 := rfl
@[simp] theorem accept_crc16r (c : BitVec 2) (s : State) : (accept c s).crc16r = 0 := rfl
@[simp] theorem accept_sha (c : BitVec 2) (s : State) : (accept c s).sha = ShaRegs.zero := rfl
@[simp] theorem accept_host (c : BitVec 2) (s : State) : (accept c s).host = ⟨.none, .none, 0, 0⟩ := rfl
@[simp] theorem accept_chalReq (c : BitVec 2) (s : State) : (accept c s).chalReq = s.chalReq := rfl
@[simp] theorem accept_line (c : BitVec 2) (s : State) : (accept c s).line = { s.line with traceRev := [], gapDue := false } := rfl
@[simp] theorem accept_env (c : BitVec 2) (s : State) : (accept c s).env = s.env := rfl
@[simp] theorem accept_ret (c : BitVec 2) (s : State) : (accept c s).ret = s.ret := rfl
@[simp] theorem accept_res (c : BitVec 2) (s : State) : (accept c s).res = .none := rfl

/-! ### `finish` -/

@[simp] theorem finish_cfg (st : Status) (c : Cause) (o : Output) (s : State) : (finish st c o s).cfg = s.cfg := rfl
@[simp] theorem finish_session (st : Status) (c : Cause) (o : Output) (s : State) : (finish st c o s).session = Session.zero := rfl
@[simp] theorem finish_seq (st : Status) (c : Cause) (o : Output) (s : State) : (finish st c o s).seq = { s.seq with cmd := 0, phase := .idle, step := 0 } := rfl
@[simp] theorem finish_shreg (st : Status) (c : Cause) (o : Output) (s : State) : (finish st c o s).shreg = s.shreg := rfl
@[simp] theorem finish_flags (st : Status) (c : Cause) (o : Output) (s : State) : (finish st c o s).flags = { clearInternalFlags s.flags with busy := false, done := true } := rfl
@[simp] theorem finish_crc8r (st : Status) (c : Cause) (o : Output) (s : State) : (finish st c o s).crc8r = s.crc8r := rfl
@[simp] theorem finish_crc16r (st : Status) (c : Cause) (o : Output) (s : State) : (finish st c o s).crc16r = s.crc16r := rfl
@[simp] theorem finish_sha (st : Status) (c : Cause) (o : Output) (s : State) : (finish st c o s).sha = ShaRegs.zero := rfl
@[simp] theorem finish_host (st : Status) (c : Cause) (o : Output) (s : State) : (finish st c o s).host = { writeOutput o s.session s.host with status := st, cause := c } := rfl
@[simp] theorem finish_chalReq (st : Status) (c : Cause) (o : Output) (s : State) : (finish st c o s).chalReq = s.chalReq := rfl
@[simp] theorem finish_line (st : Status) (c : Cause) (o : Output) (s : State) : (finish st c o s).line = s.line := rfl
@[simp] theorem finish_env (st : Status) (c : Cause) (o : Output) (s : State) : (finish st c o s).env = s.env := rfl
@[simp] theorem finish_ret (st : Status) (c : Cause) (o : Output) (s : State) : (finish st c o s).ret = s.ret := rfl
@[simp] theorem finish_res (st : Status) (c : Cause) (o : Output) (s : State) : (finish st c o s).res = .none := rfl

/-! ### `doSha1` -/

@[simp] theorem doSha1_cfg (s : State) : (doSha1 s).cfg = s.cfg := by
  simp only [doSha1]
@[simp] theorem doSha1_session (s : State) : (doSha1 s).session = s.session := by
  simp only [doSha1]
@[simp] theorem doSha1_seq (s : State) : (doSha1 s).seq = s.seq := by
  simp only [doSha1]
@[simp] theorem doSha1_shreg (s : State) : (doSha1 s).shreg = s.shreg := by
  simp only [doSha1]
@[simp] theorem doSha1_flags (s : State) : (doSha1 s).flags = s.flags := by
  simp only [doSha1]
@[simp] theorem doSha1_crc8r (s : State) : (doSha1 s).crc8r = s.crc8r := by
  simp only [doSha1]
@[simp] theorem doSha1_crc16r (s : State) : (doSha1 s).crc16r = s.crc16r := by
  simp only [doSha1]
@[simp] theorem doSha1_host (s : State) : (doSha1 s).host = s.host := by
  simp only [doSha1]
@[simp] theorem doSha1_chalReq (s : State) : (doSha1 s).chalReq = s.chalReq := by
  simp only [doSha1]
@[simp] theorem doSha1_line (s : State) : (doSha1 s).line = s.line := by
  simp only [doSha1]
@[simp] theorem doSha1_env (s : State) : (doSha1 s).env = s.env := by
  simp only [doSha1]
@[simp] theorem doSha1_ret (s : State) : (doSha1 s).ret = s.ret := by
  simp only [doSha1]
@[simp] theorem doSha1_res (s : State) : (doSha1 s).res = s.res := by
  simp only [doSha1]

/-! ### `doDeriveSecret` -/

@[simp] theorem doDeriveSecret_cfg (s : State) : (doDeriveSecret s).cfg = s.cfg := by
  simp only [doDeriveSecret, doSha1]
@[simp] theorem doDeriveSecret_session (s : State) : (doDeriveSecret s).session = { s.session with secret := extractSecret s.cfg.secretExtract (doDeriveSecret s).sha.h } := by
  simp only [doDeriveSecret, doSha1]
@[simp] theorem doDeriveSecret_seq (s : State) : (doDeriveSecret s).seq = s.seq := by
  simp only [doDeriveSecret, doSha1]
@[simp] theorem doDeriveSecret_shreg (s : State) : (doDeriveSecret s).shreg = s.shreg := by
  simp only [doDeriveSecret, doSha1]
@[simp] theorem doDeriveSecret_flags (s : State) : (doDeriveSecret s).flags = s.flags := by
  simp only [doDeriveSecret, doSha1]
@[simp] theorem doDeriveSecret_crc8r (s : State) : (doDeriveSecret s).crc8r = s.crc8r := by
  simp only [doDeriveSecret, doSha1]
@[simp] theorem doDeriveSecret_crc16r (s : State) : (doDeriveSecret s).crc16r = s.crc16r := by
  simp only [doDeriveSecret, doSha1]
@[simp] theorem doDeriveSecret_host (s : State) : (doDeriveSecret s).host = s.host := by
  simp only [doDeriveSecret, doSha1]
@[simp] theorem doDeriveSecret_chalReq (s : State) : (doDeriveSecret s).chalReq = s.chalReq := by
  simp only [doDeriveSecret, doSha1]
@[simp] theorem doDeriveSecret_line (s : State) : (doDeriveSecret s).line = s.line := by
  simp only [doDeriveSecret, doSha1]
@[simp] theorem doDeriveSecret_env (s : State) : (doDeriveSecret s).env = s.env := by
  simp only [doDeriveSecret, doSha1]
@[simp] theorem doDeriveSecret_ret (s : State) : (doDeriveSecret s).ret = s.ret := by
  simp only [doDeriveSecret, doSha1]
@[simp] theorem doDeriveSecret_res (s : State) : (doDeriveSecret s).res = s.res := by
  simp only [doDeriveSecret, doSha1]

/-! ### `doComputeMac` -/

@[simp] theorem doComputeMac_cfg (s : State) : (doComputeMac s).cfg = s.cfg := by
  simp only [doComputeMac, doSha1]
@[simp] theorem doComputeMac_session (s : State) : (doComputeMac s).session = { s.session with mach := macBytes (doComputeMac s).sha.h } := by
  simp only [doComputeMac, doSha1]
@[simp] theorem doComputeMac_seq (s : State) : (doComputeMac s).seq = s.seq := by
  simp only [doComputeMac, doSha1]
@[simp] theorem doComputeMac_shreg (s : State) : (doComputeMac s).shreg = s.shreg := by
  simp only [doComputeMac, doSha1]
@[simp] theorem doComputeMac_flags (s : State) : (doComputeMac s).flags = s.flags := by
  simp only [doComputeMac, doSha1]
@[simp] theorem doComputeMac_crc8r (s : State) : (doComputeMac s).crc8r = s.crc8r := by
  simp only [doComputeMac, doSha1]
@[simp] theorem doComputeMac_crc16r (s : State) : (doComputeMac s).crc16r = s.crc16r := by
  simp only [doComputeMac, doSha1]
@[simp] theorem doComputeMac_host (s : State) : (doComputeMac s).host = s.host := by
  simp only [doComputeMac, doSha1]
@[simp] theorem doComputeMac_chalReq (s : State) : (doComputeMac s).chalReq = s.chalReq := by
  simp only [doComputeMac, doSha1]
@[simp] theorem doComputeMac_line (s : State) : (doComputeMac s).line = s.line := by
  simp only [doComputeMac, doSha1]
@[simp] theorem doComputeMac_env (s : State) : (doComputeMac s).env = s.env := by
  simp only [doComputeMac, doSha1]
@[simp] theorem doComputeMac_ret (s : State) : (doComputeMac s).ret = s.ret := by
  simp only [doComputeMac, doSha1]
@[simp] theorem doComputeMac_res (s : State) : (doComputeMac s).res = s.res := by
  simp only [doComputeMac, doSha1]

/-! ### `doVerifyMac` -/

@[simp] theorem doVerifyMac_cfg (s : State) : (doVerifyMac s).cfg = s.cfg := rfl
@[simp] theorem doVerifyMac_session (s : State) : (doVerifyMac s).session = s.session := rfl
@[simp] theorem doVerifyMac_seq (s : State) : (doVerifyMac s).seq = s.seq := rfl
@[simp] theorem doVerifyMac_shreg (s : State) : (doVerifyMac s).shreg = s.shreg := rfl
@[simp] theorem doVerifyMac_flags (s : State) : (doVerifyMac s).flags = { s.flags with macOk := macOkOf s.session } := rfl
@[simp] theorem doVerifyMac_crc8r (s : State) : (doVerifyMac s).crc8r = s.crc8r := rfl
@[simp] theorem doVerifyMac_crc16r (s : State) : (doVerifyMac s).crc16r = s.crc16r := rfl
@[simp] theorem doVerifyMac_sha (s : State) : (doVerifyMac s).sha = s.sha := rfl
@[simp] theorem doVerifyMac_host (s : State) : (doVerifyMac s).host = s.host := rfl
@[simp] theorem doVerifyMac_chalReq (s : State) : (doVerifyMac s).chalReq = s.chalReq := rfl
@[simp] theorem doVerifyMac_line (s : State) : (doVerifyMac s).line = s.line := rfl
@[simp] theorem doVerifyMac_env (s : State) : (doVerifyMac s).env = s.env := rfl
@[simp] theorem doVerifyMac_ret (s : State) : (doVerifyMac s).ret = s.ret := rfl
@[simp] theorem doVerifyMac_res (s : State) : (doVerifyMac s).res = s.res := rfl

/-! ### `doEchoCheck` -/

@[simp] theorem doEchoCheck_cfg (s : State) : (doEchoCheck s).cfg = s.cfg := rfl
@[simp] theorem doEchoCheck_session (s : State) : (doEchoCheck s).session = s.session := rfl
@[simp] theorem doEchoCheck_seq (s : State) : (doEchoCheck s).seq = s.seq := rfl
@[simp] theorem doEchoCheck_shreg (s : State) : (doEchoCheck s).shreg = s.shreg := rfl
@[simp] theorem doEchoCheck_flags (s : State) : (doEchoCheck s).flags = { s.flags with echoOk := echoOkOf s.session } := rfl
@[simp] theorem doEchoCheck_crc8r (s : State) : (doEchoCheck s).crc8r = s.crc8r := rfl
@[simp] theorem doEchoCheck_crc16r (s : State) : (doEchoCheck s).crc16r = s.crc16r := rfl
@[simp] theorem doEchoCheck_sha (s : State) : (doEchoCheck s).sha = s.sha := rfl
@[simp] theorem doEchoCheck_host (s : State) : (doEchoCheck s).host = s.host := rfl
@[simp] theorem doEchoCheck_chalReq (s : State) : (doEchoCheck s).chalReq = s.chalReq := rfl
@[simp] theorem doEchoCheck_line (s : State) : (doEchoCheck s).line = s.line := rfl
@[simp] theorem doEchoCheck_env (s : State) : (doEchoCheck s).env = s.env := rfl
@[simp] theorem doEchoCheck_ret (s : State) : (doEchoCheck s).ret = s.ret := rfl
@[simp] theorem doEchoCheck_res (s : State) : (doEchoCheck s).res = s.res := rfl

/-! ### `popInput` -/

@[simp] theorem popInput_cfg (s : State) : (popInput s).cfg = s.cfg := rfl
@[simp] theorem popInput_session (s : State) : (popInput s).session = s.session := rfl
@[simp] theorem popInput_seq (s : State) : (popInput s).seq = s.seq := rfl
@[simp] theorem popInput_shreg (s : State) : (popInput s).shreg = s.shreg := rfl
@[simp] theorem popInput_flags (s : State) : (popInput s).flags = s.flags := rfl
@[simp] theorem popInput_crc8r (s : State) : (popInput s).crc8r = s.crc8r := rfl
@[simp] theorem popInput_crc16r (s : State) : (popInput s).crc16r = s.crc16r := rfl
@[simp] theorem popInput_sha (s : State) : (popInput s).sha = s.sha := rfl
@[simp] theorem popInput_host (s : State) : (popInput s).host = s.host := rfl
@[simp] theorem popInput_chalReq (s : State) : (popInput s).chalReq = s.chalReq := rfl
@[simp] theorem popInput_line (s : State) : (popInput s).line = s.line := rfl
@[simp] theorem popInput_env (s : State) : (popInput s).env = { s.env with inputs := s.env.inputs.tail } := rfl
@[simp] theorem popInput_ret (s : State) : (popInput s).ret = s.ret := rfl
@[simp] theorem popInput_res (s : State) : (popInput s).res = s.res := rfl

/-! ### `pullLow` -/

@[simp] theorem pullLow_drv (l : Line) : (pullLow l).drv = true := rfl
@[simp] theorem pullLow_usTimer (l : Line) : (pullLow l).usTimer = l.usTimer := rfl
@[simp] theorem pullLow_gapDue (l : Line) : (pullLow l).gapDue = l.gapDue := rfl
@[simp] theorem pullLow_script (l : Line) : (pullLow l).script = l.script := rfl
@[simp] theorem pullLow_sampleNo (l : Line) : (pullLow l).sampleNo = l.sampleNo := rfl
@[simp] theorem pullLow_gapNo (l : Line) : (pullLow l).gapNo = l.gapNo := rfl
@[simp] theorem pullLow_traceRev (l : Line) : (pullLow l).traceRev = .L :: l.traceRev := rfl

/-! ### `release` -/

@[simp] theorem release_drv (l : Line) : (release l).drv = false := rfl
@[simp] theorem release_usTimer (l : Line) : (release l).usTimer = l.usTimer := rfl
@[simp] theorem release_gapDue (l : Line) : (release l).gapDue = l.gapDue := rfl
@[simp] theorem release_script (l : Line) : (release l).script = l.script := rfl
@[simp] theorem release_sampleNo (l : Line) : (release l).sampleNo = l.sampleNo := rfl
@[simp] theorem release_gapNo (l : Line) : (release l).gapNo = l.gapNo := rfl
@[simp] theorem release_traceRev (l : Line) : (release l).traceRev = .Z :: l.traceRev := rfl

/-! ### `sample` -/

@[simp] theorem sample_drv (l : Line) : (sample l).drv = l.drv := rfl
@[simp] theorem sample_usTimer (l : Line) : (sample l).usTimer = l.usTimer := rfl
@[simp] theorem sample_gapDue (l : Line) : (sample l).gapDue = l.gapDue := rfl
@[simp] theorem sample_script (l : Line) : (sample l).script = l.script.tail := rfl
@[simp] theorem sample_sampleNo (l : Line) : (sample l).sampleNo = l.sampleNo + 1 := rfl
@[simp] theorem sample_gapNo (l : Line) : (sample l).gapNo = l.gapNo := rfl
@[simp] theorem sample_traceRev (l : Line) : (sample l).traceRev = .S (lineLevel l) :: l.traceRev := rfl

/-! ### `waitUs` -/

@[simp] theorem waitUs_drv (n : Nat) (l : Line) : (waitUs n l).drv = l.drv := rfl
@[simp] theorem waitUs_usTimer (n : Nat) (l : Line) : (waitUs n l).usTimer = 0 := rfl
@[simp] theorem waitUs_gapDue (n : Nat) (l : Line) : (waitUs n l).gapDue = l.gapDue := rfl
@[simp] theorem waitUs_script (n : Nat) (l : Line) : (waitUs n l).script = l.script := rfl
@[simp] theorem waitUs_sampleNo (n : Nat) (l : Line) : (waitUs n l).sampleNo = l.sampleNo := rfl
@[simp] theorem waitUs_gapNo (n : Nat) (l : Line) : (waitUs n l).gapNo = l.gapNo := rfl
@[simp] theorem waitUs_traceRev (n : Nat) (l : Line) : (waitUs n l).traceRev = pushWait n l.traceRev := rfl

/-! ### `lineOpDone` -/

@[simp] theorem lineOpDone_drv (l : Line) : (lineOpDone l).drv = l.drv := rfl
@[simp] theorem lineOpDone_usTimer (l : Line) : (lineOpDone l).usTimer = l.usTimer := rfl
@[simp] theorem lineOpDone_gapDue (l : Line) : (lineOpDone l).gapDue = true := rfl
@[simp] theorem lineOpDone_script (l : Line) : (lineOpDone l).script = l.script := rfl
@[simp] theorem lineOpDone_sampleNo (l : Line) : (lineOpDone l).sampleNo = l.sampleNo := rfl
@[simp] theorem lineOpDone_gapNo (l : Line) : (lineOpDone l).gapNo = l.gapNo := rfl
@[simp] theorem lineOpDone_traceRev (l : Line) : (lineOpDone l).traceRev = l.traceRev := rfl

end Sys2Proof.Machine
end

