-- ==== Sys2Proof/Laws/Transport.lean ====
section
/-! SUPPORT. The trace, the waveforms of the symbols and what an operation on the line takes of the line environment's
answers. -/

namespace Sys2Proof.Machine

open Sys2Proof.Safety

/-! ### Appending to the trace (R9) -/

@[simp] theorem pushWait_zero (tr : List Event) : pushWait 0 tr = tr := rfl

@[simp] theorem pushWait_after_L (n : Nat) (tr : List Event) :
    pushWait (n + 1) (.L :: tr) = .W (n + 1) :: .L :: tr := rfl

@[simp] theorem pushWait_after_Z (n : Nat) (tr : List Event) :
    pushWait (n + 1) (.Z :: tr) = .W (n + 1) :: .Z :: tr := rfl

@[simp] theorem pushWait_after_S (n : Nat) (v : Bool) (tr : List Event) :
    pushWait (n + 1) (.S v :: tr) = .W (n + 1) :: .S v :: tr := rfl

@[simp] theorem appendEvents_nil (tr : List Event) : appendEvents tr [] = tr := rfl

@[simp] theorem appendEvents_cons (tr : List Event) (e : Event) (es : List Event) :
    appendEvents tr (e :: es) = appendEvents (pushEvent e tr) es := rfl

theorem appendEvents_append (tr es fs : List Event) :
    appendEvents tr (es ++ fs) = appendEvents (appendEvents tr es) fs := by
  simp [appendEvents, List.foldl_append]

@[simp] theorem pushEvent_L (tr : List Event) : pushEvent .L tr = .L :: tr := rfl
@[simp] theorem pushEvent_Z (tr : List Event) : pushEvent .Z tr = .Z :: tr := rfl
@[simp] theorem pushEvent_S (v : Bool) (tr : List Event) : pushEvent (.S v) tr = .S v :: tr := rfl
@[simp] theorem pushEvent_C (b : Vector Byte 12) (tr : List Event) : pushEvent (.C b) tr = .C b :: tr := rfl
@[simp] theorem pushEvent_W (n : Nat) (tr : List Event) : pushEvent (.W n) tr = pushWait n tr := rfl

/-- A wait appended to a canonical trace leaves it canonical. -/
theorem canonicalTrace_pushWait (n : Nat) {tr : List Event} (h : canonicalTrace tr = true) :
    canonicalTrace (pushWait n tr) = true := by
  unfold pushWait
  by_cases hn : n = 0
  · simp [hn, h]
  · rw [if_neg hn]
    cases tr with
    | nil => simp [canonicalTrace, hn]
    | cons e rest =>
      cases e with
      | W m =>
        cases rest with
        | nil => simp [canonicalTrace]; omega
        | cons e' rest' => cases e' <;> simp_all [canonicalTrace]
      | L => simp_all [canonicalTrace]
      | Z => simp_all [canonicalTrace]
      | S v => simp_all [canonicalTrace]
      | C b => simp_all [canonicalTrace]

/-- Any event appended to a canonical trace leaves it canonical (R9). -/
theorem canonicalTrace_pushEvent (e : Event) {tr : List Event} (h : canonicalTrace tr = true) :
    canonicalTrace (pushEvent e tr) = true := by
  cases e with
  | W n => exact canonicalTrace_pushWait n h
  | L => simpa [canonicalTrace] using h
  | Z => simpa [canonicalTrace] using h
  | S v => simpa [canonicalTrace] using h
  | C b => simpa [canonicalTrace] using h

/-- Events appended to a canonical trace leave it canonical (R9). -/
theorem canonicalTrace_appendEvents (es : List Event) {tr : List Event} (h : canonicalTrace tr = true) :
    canonicalTrace (appendEvents tr es) = true := by
  induction es generalizing tr with
  | nil => simpa using h
  | cons e es ih => exact ih (canonicalTrace_pushEvent e h)

/-! ### Durations -/

@[simp] theorem duration_nil : duration [] = 0 := rfl
@[simp] theorem duration_W (n : Nat) (tr : List Event) : duration (.W n :: tr) = n + duration tr := rfl
@[simp] theorem duration_L (tr : List Event) : duration (.L :: tr) = duration tr := rfl
@[simp] theorem duration_Z (tr : List Event) : duration (.Z :: tr) = duration tr := rfl
@[simp] theorem duration_S (v : Bool) (tr : List Event) : duration (.S v :: tr) = duration tr := rfl
@[simp] theorem duration_C (b : Vector Byte 12) (tr : List Event) : duration (.C b :: tr) = duration tr := rfl

theorem duration_append (es fs : List Event) : duration (es ++ fs) = duration es + duration fs := by
  induction es with
  | nil => simp
  | cons e es ih => cases e <;> simp [ih, Nat.add_assoc]

@[simp] theorem duration_pushWait (n : Nat) (tr : List Event) : duration (pushWait n tr) = n + duration tr := by
  unfold pushWait
  by_cases hn : n = 0
  · simp [hn]
  · rw [if_neg hn]
    cases tr with
    | nil => simp
    | cons e rest => cases e <;> simp; omega

/-- Merging waits keeps the time (R9). -/
theorem duration_appendEvents (tr es : List Event) : duration (appendEvents tr es) = duration tr + duration es := by
  induction es generalizing tr with
  | nil => simp
  | cons e es ih => cases e <;> simp [ih]; omega

/-! ### Operations with the gaps between them (R137) -/

@[simp] theorem gapsDrawn_zero (g : Config.Gap) (due : Bool) : gapsDrawn g due 0 = 0 := by
  cases g <;> simp [gapsDrawn]

theorem gapsDrawn_add (g : Config.Gap) (due : Bool) (m n : Nat) :
    gapsDrawn g due (m + n) = gapsDrawn g due m + gapsDrawn g (due || decide (m ≠ 0)) n := by
  cases g with
  | fixed us => rfl
  | drawn =>
    cases due with
    | true => simp [gapsDrawn]
    | false => cases m <;> simp [gapsDrawn]

theorem any_usesLine_eq (ops : List (List Event)) : ops.any usesLine = decide (ops.countP usesLine ≠ 0) := by
  rw [Bool.eq_iff_iff]
  simp [List.countP_eq_zero]

theorem nextGap_eq (g : Config.Gap) (no : Nat) : nextGap g no = no + gapsDrawn g true 1 := by
  cases g <;> rfl

/-- A sequence of operations is its two parts, the second with the gap the first made due. -/
theorem withGaps_append (g : Config.Gap) (due : Bool) (no : Nat) (as bs : List (List Event)) :
    withGaps g due no (as ++ bs) =
      withGaps g due no as ++
        withGaps g (due || as.any usesLine) (no + gapsDrawn g due (as.countP usesLine)) bs := by
  induction as generalizing due no with
  | nil => simp [withGaps]
  | cons a as ih =>
    by_cases ha : usesLine a = true
    · cases due with
      | true =>
        simp only [List.cons_append, withGaps, ha, if_true, ih, List.any_cons, Bool.true_or, List.countP_cons_of_pos,
          List.append_assoc]
        rw [Nat.add_comm _ 1, gapsDrawn_add, nextGap_eq]
        simp [Nat.add_assoc]
      | false =>
        simp only [List.cons_append, withGaps, ha, if_true, ih, List.any_cons, Bool.true_or, List.countP_cons_of_pos,
          Bool.false_or]
        rw [Nat.add_comm _ 1, gapsDrawn_add]
        cases g <;> simp [gapsDrawn]
    · have ha' : usesLine a = false := by simpa using ha
      simp [withGaps, ha', ih, List.append_assoc]

/-- No operation leaves the line side as it is. -/
theorem lineAfter_none (g : Config.Gap) (l : Line) : LineAfter g l l [] 0 where
  trace := rfl
  due := by simp
  drawn := by simp
  script := by simp
  sampleNo := rfl
  drv := by simp
  timer := by simp

/-- Operations one after the other (R116 "executed left to right"). -/
theorem lineAfter_append {g : Config.Gap} {l m n : Line} {as bs : List (List Event)} {i j : Nat}
    (h : LineAfter g l m as i) (k : LineAfter g m n bs j) : LineAfter g l n (as ++ bs) (i + j) where
  trace := by rw [k.trace, h.trace, h.due, h.drawn, withGaps_append, appendEvents_append]
  due := by rw [k.due, h.due, List.any_append, Bool.or_assoc]
  drawn := by
    rw [k.drawn, h.drawn, h.due, List.countP_append, gapsDrawn_add, any_usesLine_eq, Nat.add_assoc]
  script := by rw [k.script, h.script, List.drop_drop]
  sampleNo := by rw [k.sampleNo, h.sampleNo, Nat.add_assoc]
  drv := by rw [k.drv, h.drv, List.any_append]; cases l.drv <;> simp
  timer := by
    rw [k.timer, h.timer, List.any_append]
    by_cases hb : bs.any usesLine = true <;> by_cases ha : as.any usesLine = true <;> simp [ha, hb]

/-- Operations leave a trace in its one form (R9). -/
theorem lineAfter_canonical {g : Config.Gap} {l m : Line} {ops : List (List Event)} {i : Nat} (h : LineAfter g l m ops i)
    (hl : canonicalTrace l.traceRev = true) : canonicalTrace m.traceRev = true := by
  rw [h.trace]
  exact canonicalTrace_appendEvents _ hl

/-- With the default `T_GAP` nothing stands between two operations (R137). -/
theorem withGaps_fixed_zero (due : Bool) (no : Nat) (ops : List (List Event)) (tr : List Event) :
    appendEvents tr (withGaps (.fixed 0) due no ops) = appendEvents tr ops.flatten := by
  induction ops generalizing due no tr with
  | nil => rfl
  | cons op ops ih =>
    rw [List.flatten_cons, withGaps]
    by_cases h : usesLine op = true
    · cases due <;> simp [h, gapUs, nextGap, appendEvents_append, ih]
    · simp [h, appendEvents_append, ih]

/-! ### What the line answers (R5) -/

theorem lineLevel_eq_answer (l : Line) : lineLevel l = answer l 0 := by
  unfold lineLevel answer
  cases l.script <;> simp

/-- The answers depend on the script and the sample number only. -/
theorem answer_congr {l m : Line} (hs : m.script = l.script) (hn : m.sampleNo = l.sampleNo) (k : Nat) :
    answer m k = answer l k := by
  unfold answer
  rw [hs, hn]

/-- After so many samples, the answers are the later ones. -/
theorem answer_drop {l m : Line} {i : Nat} (hs : m.script = l.script.drop i) (hn : m.sampleNo = l.sampleNo + i)
    (k : Nat) : answer m k = answer l (i + k) := by
  unfold answer
  rw [hs, hn, List.getElem?_drop, Nat.add_assoc]

theorem lineAfter_answer {g : Config.Gap} {l m : Line} {ops : List (List Event)} {i : Nat} (h : LineAfter g l m ops i)
    (k : Nat) : answer m k = answer l (i + k) := answer_drop h.script h.sampleNo k

theorem lineAfter_answeredByte {g : Config.Gap} {l m : Line} {ops : List (List Event)} {i : Nat}
    (h : LineAfter g l m ops i) (k : Nat) : answeredByte m k = answeredByte l (i + k) := by
  simp [answeredByte, lineAfter_answer h, Nat.add_assoc]

theorem lineAfter_answeredBytes {g : Config.Gap} {l m : Line} {ops : List (List Event)} {i : Nat}
    (h : LineAfter g l m ops i) (k n : Nat) : answeredBytes m k n = answeredBytes l (i + k) n := by
  simp [answeredBytes, lineAfter_answeredByte h, Nat.add_assoc]

theorem lineAfter_readOps {g : Config.Gap} {l m : Line} {ops : List (List Event)} {i : Nat}
    (h : LineAfter g l m ops i) (k n : Nat) : readOps m k n = readOps l (i + k) n := by
  simp [readOps, lineAfter_answer h, Nat.add_assoc]

/-! ### The gap before an operation -/

theorem gap_traceRev (g : Config.Gap) (l : Line) :
    (gap g l).traceRev = if l.gapDue then pushWait (gapUs g l.gapNo) l.traceRev else l.traceRev := by
  unfold gap
  cases l.gapDue <;> cases g <;> simp [countGap, gapLength, gapUs]

theorem gap_gapNo (g : Config.Gap) (l : Line) : (gap g l).gapNo = l.gapNo + gapsDrawn g l.gapDue 1 := by
  unfold gap
  cases l.gapDue <;> cases g <;> simp [countGap, gapsDrawn]

@[simp] theorem gap_drv (g : Config.Gap) (l : Line) : (gap g l).drv = l.drv := by
  unfold gap
  cases h : l.gapDue <;> cases g <;> simp [countGap]

@[simp] theorem gap_script (g : Config.Gap) (l : Line) : (gap g l).script = l.script := by
  unfold gap
  cases h : l.gapDue <;> cases g <;> simp [countGap]

@[simp] theorem gap_sampleNo (g : Config.Gap) (l : Line) : (gap g l).sampleNo = l.sampleNo := by
  unfold gap
  cases h : l.gapDue <;> cases g <;> simp [countGap]

/-- One operation on the line: its events after the gap. -/
theorem lineAfter_one {g : Config.Gap} {l m : Line} {op : List Event} {i : Nat} (huse : usesLine op = true)
    (htrace : m.traceRev = appendEvents (gap g l).traceRev op) (hdue : m.gapDue = true)
    (hno : m.gapNo = (gap g l).gapNo) (hscript : m.script = l.script.drop i) (hsample : m.sampleNo = l.sampleNo + i)
    (hdrv : m.drv = (l.drv && !usesLow op)) (htimer : m.usTimer = 0) : LineAfter g l m [op] i where
  trace := by
    rw [htrace, gap_traceRev]
    cases l.gapDue <;> simp [withGaps, huse]
  due := by simp [hdue, huse]
  drawn := by rw [hno, gap_gapNo]; simp [huse]
  script := hscript
  sampleNo := hsample
  drv := by simp [hdrv]
  timer := by simp [htimer, huse]

/-! ### The symbols (R131 to R134) -/

/-- `WBIT b` on the line (R132). -/
theorem wbitLine_after (g : Config.Gap) (b : Bool) (l : Line) :
    LineAfter g l (wbitLine g b l) [wbitEvents b] 0 := by
  cases b <;>
    exact lineAfter_one rfl
      (by simp [wbitLine, wbitEvents, Config.tW1Low, Config.tW1Rec, Config.tW0Low, Config.tW0Rec]) rfl
      (by simp [wbitLine]) (by simp [wbitLine]) (by simp [wbitLine])
      (by simp [wbitLine, usesLow, wbitEvents]) (by simp [wbitLine])

/-- `DELAY n` on the line (R134). -/
theorem delayLine_after (g : Config.Gap) (n : BitVec 17) (l : Line) :
    LineAfter g l (delayLine g n l) [[.W n.toNat]] 0 :=
  lineAfter_one rfl (by simp [delayLine]) rfl (by simp [delayLine]) (by simp [delayLine]) (by simp [delayLine])
    (by simp [delayLine, usesLow]) (by simp [delayLine])

theorem rbitLevel_eq_answer (g : Config.Gap) (l : Line) : rbitLevel g l = answer l 0 := by
  rw [rbitLevel, lineLevel_eq_answer]
  exact answer_congr (by simp [rbitToSample]) (by simp [rbitToSample]) 0

/-- `RBIT` on the line (R133). -/
theorem rbitLine_after (g : Config.Gap) (l : Line) : LineAfter g l (rbitLine g l) [rbitEvents (answer l 0)] 1 := by
  rw [← rbitLevel_eq_answer g]
  exact lineAfter_one rfl
    (by simp [rbitLine, rbitToSample, rbitEvents, rbitLevel, Config.tRdLow, Config.tRdWait, Config.tRdRec]) rfl
    (by simp [rbitLine, rbitToSample]) (by simp [rbitLine, rbitToSample]) (by simp [rbitLine, rbitToSample])
    (by simp [rbitLine, rbitToSample, usesLow, rbitEvents]) (by simp [rbitLine])

theorem resetLevel_eq_answer (g : Config.Gap) (l : Line) : resetLevel g l = answer l 0 := by
  rw [resetLevel, lineLevel_eq_answer]
  exact answer_congr (by simp [resetToSample]) (by simp [resetToSample]) 0

/-- `RESET` on the line (R131). -/
theorem resetLine_after (g : Config.Gap) (l : Line) : LineAfter g l (resetLine g l) [resetEvents (answer l 0)] 1 := by
  rw [← resetLevel_eq_answer g]
  exact lineAfter_one rfl
    (by simp [resetLine, resetToSample, resetEvents, resetLevel, Config.tRstLow, Config.tRstWait, Config.tRstRec]) rfl
    (by simp [resetLine, resetToSample]) (by simp [resetLine, resetToSample]) (by simp [resetLine, resetToSample])
    (by simp [resetLine, resetToSample, usesLow, resetEvents]) (by simp [resetLine])

/-- A challenge drawn is on the trace, without a gap (R252). -/
theorem drawChallenge_after (s : State) :
    LineAfter s.cfg.tGap s.line (drawChallenge s).line [[.C (challengeAnswer s)]] 0 where
  trace := rfl
  due := by simp [usesLine]
  drawn := by simp [usesLine]
  script := rfl
  sampleNo := rfl
  drv := by simp [usesLow]
  timer := by simp [usesLine]

end Sys2Proof.Machine
end

