-- ==== Sys2Proof/Laws/Codec.lean ====
section
/-! SUPPORT. The byte and block operations in closed form: what is left of them when the bit loops are run
(spec/41_byte_block_codec.md R151 to R154). -/

namespace Sys2Proof.Machine

open Sys2Proof.Safety

/-! ### Many bits on the line -/

/-- The line after n read slots. -/
def lineAfterReads (g : Config.Gap) (n : Nat) (l : Line) : Line := (rbitLine g)^[n] l

@[simp] theorem lineAfterReads_zero (g : Config.Gap) (l : Line) : lineAfterReads g 0 l = l := rfl

theorem lineAfterReads_succ (g : Config.Gap) (n : Nat) (l : Line) :
    lineAfterReads g (n + 1) l = rbitLine g (lineAfterReads g n l) := Function.iterate_succ_apply' _ _ _

theorem lineAfterReads_add (g : Config.Gap) (m n : Nat) (l : Line) :
    lineAfterReads g (m + n) l = lineAfterReads g m (lineAfterReads g n l) := Function.iterate_add_apply _ _ _ _

theorem readOps_succ (l : Line) (k n : Nat) : readOps l k (n + 1) = readOps l k n ++ [rbitEvents (answer l (k + n))] := by
  simp [readOps, List.range_succ]

theorem readOps_add (l : Line) (k m n : Nat) : readOps l k (m + n) = readOps l k m ++ readOps l (k + m) n := by
  induction n with
  | zero => simp [readOps]
  | succ n ih => rw [← Nat.add_assoc, readOps_succ, readOps_succ, ih, List.append_assoc, Nat.add_assoc]

/-- Read slots on the line (R133). -/
theorem lineAfterReads_after (g : Config.Gap) (n : Nat) (l : Line) :
    LineAfter g l (lineAfterReads g n l) (readOps l 0 n) n := by
  induction n with
  | zero => exact lineAfter_none g l
  | succ n ih =>
    have h := lineAfter_append ih (rbitLine_after g (lineAfterReads g n l))
    rw [← lineAfterReads_succ, lineAfter_answer ih] at h
    simpa [readOps_succ] using h

@[simp] theorem lineAfterReads_answer (g : Config.Gap) (n : Nat) (l : Line) (k : Nat) :
    answer (lineAfterReads g n l) k = answer l (n + k) := lineAfter_answer (lineAfterReads_after g n l) k

/-- The line after a byte is written. -/
def lineAfterByte (g : Config.Gap) (v : Byte) (l : Line) : Line :=
  (List.range 8).foldl (fun m k => wbitLine g (v.getLsbD k) m) l

theorem lineAfterByte_eq (g : Config.Gap) (v : Byte) (l : Line) :
    lineAfterByte g v l =
      wbitLine g (v.getLsbD 7) (wbitLine g (v.getLsbD 6) (wbitLine g (v.getLsbD 5) (wbitLine g (v.getLsbD 4)
        (wbitLine g (v.getLsbD 3) (wbitLine g (v.getLsbD 2) (wbitLine g (v.getLsbD 1) (wbitLine g (v.getLsbD 0) l))))))) :=
  rfl

/-- Bits written one after the other, in the order of a list of places. -/
theorem wbits_after (g : Config.Gap) (v : Byte) (ks : List Nat) (l : Line) :
    LineAfter g l (ks.foldl (fun m k => wbitLine g (v.getLsbD k) m) l)
      (ks.map fun k => wbitEvents (v.getLsbD k)) 0 := by
  induction ks generalizing l with
  | nil => exact lineAfter_none g l
  | cons k ks ih => exact lineAfter_append (wbitLine_after g (v.getLsbD k) l) (ih _)

/-- A byte on the line, least significant bit first (R66, R93). -/
theorem lineAfterByte_after (g : Config.Gap) (v : Byte) (l : Line) :
    LineAfter g l (lineAfterByte g v l) (byteOps v) 0 := wbits_after g v (List.range 8) l

/-- The line after bytes are written. -/
def lineAfterBytes (g : Config.Gap) (bytes : List Byte) (l : Line) : Line :=
  bytes.foldl (fun m v => lineAfterByte g v m) l

@[simp] theorem lineAfterBytes_nil (g : Config.Gap) (l : Line) : lineAfterBytes g [] l = l := rfl

@[simp] theorem lineAfterBytes_cons (g : Config.Gap) (v : Byte) (vs : List Byte) (l : Line) :
    lineAfterBytes g (v :: vs) l = lineAfterBytes g vs (lineAfterByte g v l) := rfl

theorem lineAfterBytes_append (g : Config.Gap) (vs ws : List Byte) (l : Line) :
    lineAfterBytes g (vs ++ ws) l = lineAfterBytes g ws (lineAfterBytes g vs l) := by
  simp [lineAfterBytes, List.foldl_append]

/-- Bytes on the line (R67). -/
theorem lineAfterBytes_after (g : Config.Gap) (vs : List Byte) (l : Line) :
    LineAfter g l (lineAfterBytes g vs l) (bytesOps vs) 0 := by
  induction vs generalizing l with
  | nil => exact lineAfter_none g l
  | cons v vs ih => exact lineAfter_append (lineAfterByte_after g v l) (ih _)

/-! ### `RBYTE` and `WBYTE` -/

/-- `WBYTE v` in closed form (R152). -/
theorem doWbyte_eq (v : Byte) (s : State) :
    doWbyte v s =
      { s with line := lineAfterByte s.cfg.tGap v s.line, shreg := v, seq := { s.seq with bitCnt := 7 } } := by
  simp only [doWbyte, List.range_succ, List.range_zero, List.foldl_append, List.foldl_cons, List.foldl_nil,
    List.nil_append, writeBitOf, doWbit, lineAfterByte_eq]
  rfl

/-- `RBYTE` in closed form (R151). -/
theorem doRbyte_eq (s : State) :
    doRbyte s =
      { s with
        line := lineAfterReads s.cfg.tGap 8 s.line, shreg := answeredByte s.line 0, ret := answeredByte s.line 0
        seq := { s.seq with bitCnt := 7 } } := by
  have h : ∀ n, answer ((rbitLine s.cfg.tGap)^[n] s.line) 0 = answer s.line n := fun n => by
    simpa [lineAfterReads] using lineAfterReads_answer s.cfg.tGap n s.line 0
  have h0 := h 0
  have h1 := h 1
  have h2 := h 2
  have h3 := h 3
  have h4 := h 4
  have h5 := h 5
  have h6 := h 6
  have h7 := h 7
  simp only [Function.iterate_succ, Function.iterate_zero, Function.comp_apply, id] at h0 h1 h2 h3 h4 h5 h6 h7
  simp only [doRbyte, List.range_succ, List.range_zero, List.foldl_append, List.foldl_cons, List.foldl_nil,
    List.nil_append, readBitInto, doRbit, rbitLevel_eq_answer, h1, h2, h3, h4, h5, h6, h7, answeredByte,
    lineAfterReads, Function.iterate_succ, Function.iterate_zero, Function.comp_apply, id, Nat.zero_add]
  rfl

/-! ### Reading and writing one byte of a buffer -/

theorem byteAt_lt {n : Nat} (v : Vector Byte n) {k : Nat} (h : k < n) : byteAt v k = v[k] := by
  simp [byteAt, h]

theorem byteAt_ge {n : Nat} (v : Vector Byte n) {k : Nat} (h : n ≤ k) : byteAt v k = 0 := by
  simp [byteAt, Nat.not_lt.mpr h]

theorem byteAt_set {n : Nat} (v : Vector Byte n) (i k : Nat) (b : Byte) :
    byteAt (v.setIfInBounds i b) k = if k = i ∧ i < n then b else byteAt v k := by
  by_cases hk : k < n
  · rw [byteAt_lt _ hk, byteAt_lt _ hk, Vector.getElem_setIfInBounds hk]
    by_cases hi : i = k
    · subst hi; simp [hk]
    · rw [if_neg hi, if_neg (fun h => hi h.1.symm)]
  · rw [byteAt_ge _ (Nat.not_lt.mp hk), byteAt_ge _ (Nat.not_lt.mp hk), if_neg]
    rintro ⟨rfl, h⟩
    exact hk h

/-- A byte written is the byte read (R8, R60). -/
theorem readBuf_writeBuf_same (s : State) (b : Buf) {i : Nat} (h : i < b.length) (v : Byte) :
    readBuf (writeBuf b i v s) b i = v := by
  cases b <;> simp_all [readBuf, writeBuf, byteAt_set, Buf.length]

/-- A write leaves every other byte of `BUF` alone (R60). -/
theorem readBuf_writeBuf_other (s : State) (b c : Buf) (i k : Nat) (v : Byte) (h : c ≠ b ∨ k ≠ i) :
    readBuf (writeBuf b i v s) c k = readBuf s c k := by
  cases b <;> cases c <;> simp_all [readBuf, writeBuf, byteAt_set]

@[simp] theorem writeBuf_cfg (b : Buf) (i : Nat) (v : Byte) (s : State) : (writeBuf b i v s).cfg = s.cfg := by cases b <;> rfl
@[simp] theorem writeBuf_seq (b : Buf) (i : Nat) (v : Byte) (s : State) : (writeBuf b i v s).seq = s.seq := by cases b <;> rfl
@[simp] theorem writeBuf_shreg (b : Buf) (i : Nat) (v : Byte) (s : State) : (writeBuf b i v s).shreg = s.shreg := by cases b <;> rfl
@[simp] theorem writeBuf_flags (b : Buf) (i : Nat) (v : Byte) (s : State) : (writeBuf b i v s).flags = s.flags := by cases b <;> rfl
@[simp] theorem writeBuf_crc8r (b : Buf) (i : Nat) (v : Byte) (s : State) : (writeBuf b i v s).crc8r = s.crc8r := by cases b <;> rfl
@[simp] theorem writeBuf_crc16r (b : Buf) (i : Nat) (v : Byte) (s : State) : (writeBuf b i v s).crc16r = s.crc16r := by cases b <;> rfl
@[simp] theorem writeBuf_host (b : Buf) (i : Nat) (v : Byte) (s : State) : (writeBuf b i v s).host = s.host := by cases b <;> rfl
@[simp] theorem writeBuf_chalReq (b : Buf) (i : Nat) (v : Byte) (s : State) : (writeBuf b i v s).chalReq = s.chalReq := by cases b <;> rfl
@[simp] theorem writeBuf_line (b : Buf) (i : Nat) (v : Byte) (s : State) : (writeBuf b i v s).line = s.line := by cases b <;> rfl
@[simp] theorem writeBuf_env (b : Buf) (i : Nat) (v : Byte) (s : State) : (writeBuf b i v s).env = s.env := by cases b <;> rfl
@[simp] theorem writeBuf_ret (b : Buf) (i : Nat) (v : Byte) (s : State) : (writeBuf b i v s).ret = s.ret := by cases b <;> rfl
@[simp] theorem writeBuf_res (b : Buf) (i : Nat) (v : Byte) (s : State) : (writeBuf b i v s).res = s.res := by cases b <;> rfl

/-! ### `WBLOCK` and `RBLOCK` -/

/-- The value a transfer counter has after n rounds (R28): the last round's, or what it was. -/
def lastRound {w : Nat} (old : BitVec w) (n : Nat) : BitVec w := if n = 0 then old else BitVec.ofNat w (n - 1)

@[simp] theorem lastRound_zero {w : Nat} (old : BitVec w) : lastRound old 0 = old := rfl

@[simp] theorem lastRound_succ {w : Nat} (old : BitVec w) (n : Nat) : lastRound old (n + 1) = BitVec.ofNat w n := rfl

/-- The bytes `WBLOCK` sends, in the order of the line. -/
def blockBytes (s : State) (src : BlockSource) (n : Nat) : List Byte := (List.range n).map (sourceByte s src)

theorem blockBytes_succ (s : State) (src : BlockSource) (n : Nat) :
    blockBytes s src (n + 1) = blockBytes s src n ++ [sourceByte s src n] := by
  simp [blockBytes, List.range_succ]

/-- A source's bytes depend on the session registers and the message block only. -/
theorem sourceByte_congr {s t : State} (hs : t.session = s.session) (hm : t.sha = s.sha) (src : BlockSource) (k : Nat) :
    sourceByte t src k = sourceByte s src k := by
  cases src with
  | buf b => cases b <;> simp [sourceByte, readBuf, hs, hm]
  | const bytes => rfl

/-- `WBLOCK buf, n` in closed form (R154). -/
theorem doWblock_eq (src : BlockSource) (n : Nat) (s : State) :
    doWblock src n s =
      { s with
        line := lineAfterBytes s.cfg.tGap (blockBytes s src n) s.line
        shreg := if n = 0 then s.shreg else sourceByte s src (n - 1)
        seq := { s.seq with byteCnt := lastRound s.seq.byteCnt n, bitCnt := if n = 0 then s.seq.bitCnt else 7 } } := by
  induction n with
  | zero => rfl
  | succ n ih =>
    have hfold : doWblock src (n + 1) s = writeByteOf src (doWblock src n s) n := by
      simp [doWblock, List.range_succ]
    rw [hfold, writeByteOf, sourceByte_congr (s := s) (by rw [ih]) (by rw [ih]), doWbyte_eq, ih, blockBytes_succ,
      lineAfterBytes_append]
    simp

/-- `RBLOCK buf, n` in closed form (R153): the bytes answered go to the buffer from index 0 up, nothing else of `BUF`
changes. -/
theorem doRblock_spec (buf : Buf) (n : Nat) (s : State) (h : n ≤ buf.length) :
    let t := doRblock buf n s
    t = { s with
          line := lineAfterReads s.cfg.tGap (8 * n) s.line
          shreg := if n = 0 then s.shreg else answeredByte s.line (8 * (n - 1))
          ret := if n = 0 then s.ret else answeredByte s.line (8 * (n - 1))
          seq := { s.seq with byteCnt := lastRound s.seq.byteCnt n, bitCnt := if n = 0 then s.seq.bitCnt else 7 }
          session := t.session
          sha := { s.sha with msg := t.sha.msg } } ∧
      (∀ k, k < n → readBuf t buf k = answeredByte s.line (8 * k)) ∧
      (∀ b k, b ≠ buf ∨ n ≤ k → readBuf t b k = readBuf s b k) := by
  induction n with
  | zero => exact ⟨rfl, fun k hk => absurd hk (Nat.not_lt_zero k), fun b k _ => rfl⟩
  | succ n ih =>
    obtain ⟨heq, hin, hout⟩ := ih (Nat.le_of_succ_le h)
    have hfold : doRblock buf (n + 1) s = readByteInto buf (doRblock buf n s) n := by
      simp [doRblock, List.range_succ]
    have hline : (doRblock buf n s).line = lineAfterReads s.cfg.tGap (8 * n) s.line := by rw [heq]
    have hcfg : (doRblock buf n s).cfg = s.cfg := by rw [heq]
    have hbyte : answeredByte (doRblock buf n s).line 0 = answeredByte s.line (8 * n) :=
      by rw [hline, lineAfter_answeredByte (lineAfterReads_after _ _ _), Nat.add_zero]
    have hread : readByteInto buf (doRblock buf n s) n =
        writeBuf buf n (answeredByte s.line (8 * n))
          { doRblock buf n s with
            line := lineAfterReads s.cfg.tGap (8 * (n + 1)) s.line
            shreg := answeredByte s.line (8 * n), ret := answeredByte s.line (8 * n)
            seq := { (doRblock buf n s).seq with byteCnt := BitVec.ofNat 6 n, bitCnt := 7 } } := by
      simp only [readByteInto, doRbyte_eq]
      rw [hbyte, hcfg, hline, ← lineAfterReads_add, show 8 + 8 * n = 8 * (n + 1) by omega]
    have hmem : ∀ b k, readBuf { doRblock buf n s with
            line := lineAfterReads s.cfg.tGap (8 * (n + 1)) s.line
            shreg := answeredByte s.line (8 * n), ret := answeredByte s.line (8 * n)
            seq := { (doRblock buf n s).seq with byteCnt := BitVec.ofNat 6 n, bitCnt := 7 } } b k =
        readBuf (doRblock buf n s) b k := fun b k => by cases b <;> rfl
    rw [hfold, hread]
    refine ⟨?_, ?_, ?_⟩
    · rw [heq]
      cases buf <;> simp [writeBuf]
    · intro k hk
      by_cases hkn : k = n
      · subst hkn
        exact readBuf_writeBuf_same _ _ h _
      · rw [readBuf_writeBuf_other _ _ _ _ _ _ (Or.inr hkn), hmem]
        exact hin k (by omega)
    · intro b k hbk
      rw [readBuf_writeBuf_other _ _ _ _ _ _ (hbk.imp_right (by omega)), hmem]
      exact hout b k (hbk.imp_right (by omega))

/-! ### What a byte's bits are -/

/-- Writing one bit of a byte (R104). -/
theorem setBit_getLsbD (k j : Nat) (b : Bool) (v : Byte) (hk : k < 8) (hj : j < 8) :
    (setBit k b v).getLsbD j = if j = k then b else v.getLsbD j := by
  have hone : (1#8 <<< k).getLsbD j = decide (j = k) := by
    interval_cases k <;> interval_cases j <;> rfl
  unfold setBit
  cases b with
  | true => rw [if_pos rfl, BitVec.getLsbD_or, hone]; by_cases hjk : j = k <;> simp [hjk]
  | false => rw [if_neg Bool.false_ne_true, BitVec.getLsbD_and, BitVec.getLsbD_not, hone]; by_cases hjk : j = k <;> simp [hjk, hj]

/-- Sample k + j is bit j of the byte answered from sample k on (R104). -/
theorem answeredByte_getLsbD (l : Line) (k j : Nat) (hj : j < 8) :
    (answeredByte l k).getLsbD j = answer l (k + j) := by
  simp only [answeredByte, List.range_succ, List.range_zero, List.foldl_append, List.foldl_cons, List.foldl_nil,
    List.nil_append]
  rw [setBit_getLsbD 7 j _ _ (by decide) hj, setBit_getLsbD 6 j _ _ (by decide) hj,
    setBit_getLsbD 5 j _ _ (by decide) hj, setBit_getLsbD 4 j _ _ (by decide) hj,
    setBit_getLsbD 3 j _ _ (by decide) hj, setBit_getLsbD 2 j _ _ (by decide) hj,
    setBit_getLsbD 1 j _ _ (by decide) hj, setBit_getLsbD 0 j _ _ (by decide) hj]
  interval_cases j <;> simp

/-! ### `RBLOCK` as an equation, buffer by buffer -/

theorem vector_eq_of_byteAt {n : Nat} {v w : Vector Byte n} (h : ∀ k, byteAt v k = byteAt w k) : v = w := by
  ext k hk
  have := h k
  rw [byteAt_lt v hk, byteAt_lt w hk] at this
  rw [this]

/-- Two states whose `BUF` bytes agree hold the same session registers and the same message block. -/
theorem buffers_eq_of_readBuf {s t : State} (h : ∀ b k, readBuf t b k = readBuf s b k) :
    t.session = s.session ∧ t.sha.msg = s.sha.msg := by
  refine ⟨?_, vector_eq_of_byteAt fun k => h .msg k⟩
  have hi := vector_eq_of_byteAt fun k => h .ident k
  have hc := vector_eq_of_byteAt fun k => h .chal k
  have he := vector_eq_of_byteAt fun k => h .echo k
  have hr := vector_eq_of_byteAt fun k => h .rbuf k
  have hm := vector_eq_of_byteAt fun k => h .mbuf k
  have hs := vector_eq_of_byteAt fun k => h .secret k
  have hh := vector_eq_of_byteAt fun k => h .mach k
  cases hs' : s.session
  cases ht' : t.session
  simp_all

/-- A buffer whose first n bytes are those answered. -/
def filled {m : Nat} (v : Vector Byte m) (l : Line) (n : Nat) : Vector Byte m :=
  Vector.ofFn fun i => if i.val < n then answeredByte l (8 * i.val) else v[i]

theorem byteAt_filled {m : Nat} (v : Vector Byte m) (l : Line) (n k : Nat) (hn : n ≤ m) :
    byteAt (filled v l n) k = if k < n then answeredByte l (8 * k) else byteAt v k := by
  by_cases hk : k < m
  · rw [byteAt_lt _ hk, byteAt_lt _ hk]; simp [filled]
  · rw [byteAt_ge _ (Nat.not_lt.mp hk), byteAt_ge _ (Nat.not_lt.mp hk), if_neg (by omega)]

/-- A filled buffer as a list: the bytes answered, then the old ones. -/
theorem filled_toList {m : Nat} (v : Vector Byte m) (l : Line) (n : Nat) (hn : n ≤ m) :
    (filled v l n).toList = answeredBytes l 0 n ++ v.toList.drop n := by
  apply List.ext_getElem
  · simp [answeredBytes]; omega
  · intro k h1 h2
    by_cases hk : k < n
    · rw [List.getElem_append_left (by simpa [answeredBytes] using hk)]
      simp [filled, answeredBytes, hk]
    · rw [List.getElem_append_right (by simpa [answeredBytes] using Nat.not_lt.mp hk)]
      simp [filled, answeredBytes, hk]
      congr 1
      omega

/-- What `RBLOCK` of n bytes, n not 0, does but for the buffer. -/
def afterRblock (n : Nat) (s : State) : State :=
  { s with
    line := lineAfterReads s.cfg.tGap (8 * n) s.line
    shreg := answeredByte s.line (8 * (n - 1)), ret := answeredByte s.line (8 * (n - 1))
    seq := { s.seq with byteCnt := BitVec.ofNat 6 (n - 1), bitCnt := 7 } }

theorem doRblock_eq_of {buf : Buf} {n : Nat} {s : State} {m : Session} {msg : Vector Byte 64} (h : n ≤ buf.length)
    (h0 : n ≠ 0)
    (hbuf : ∀ b k, readBuf { s with session := m, sha := { s.sha with msg := msg } } b k =
      if b = buf ∧ k < n then answeredByte s.line (8 * k) else readBuf s b k) :
    doRblock buf n s = { afterRblock n s with session := m, sha := { s.sha with msg := msg } } := by
  obtain ⟨heq, hin, hout⟩ := doRblock_spec buf n s h
  have hsame : ∀ b k, readBuf (doRblock buf n s) b k =
      readBuf { s with session := m, sha := { s.sha with msg := msg } } b k := by
    intro b k
    rw [hbuf]
    by_cases hb : b = buf ∧ k < n
    · rw [if_pos hb, hb.1]; exact hin k hb.2
    · rw [if_neg hb]
      exact hout b k (by by_cases hbb : b = buf; exacts [Or.inr (Nat.not_lt.mp fun hk => hb ⟨hbb, hk⟩), Or.inl hbb])
  obtain ⟨hses, hmsg⟩ := buffers_eq_of_readBuf hsame
  rw [heq]
  have hses' : (doRblock buf n s).session = m := hses
  have hmsg' : (doRblock buf n s).sha.msg = msg := hmsg
  rw [hses', hmsg', if_neg h0, if_neg h0, if_neg h0]
  simp only [lastRound, if_neg h0]
  rfl

theorem doRblock_ident_eq (n : Nat) (s : State) (h : n ≤ 8) (h0 : n ≠ 0) :
    doRblock .ident n s =
      { afterRblock n s with session := { s.session with ident := filled s.session.ident s.line n } } :=
  doRblock_eq_of (msg := s.sha.msg) h h0 fun b k => by
    cases b <;> simp [readBuf, byteAt_filled _ _ _ _ h]

theorem doRblock_echo_eq (n : Nat) (s : State) (h : n ≤ 12) (h0 : n ≠ 0) :
    doRblock .echo n s =
      { afterRblock n s with session := { s.session with echo := filled s.session.echo s.line n } } :=
  doRblock_eq_of (msg := s.sha.msg) h h0 fun b k => by
    cases b <;> simp [readBuf, byteAt_filled _ _ _ _ h]

theorem doRblock_rbuf_eq (n : Nat) (s : State) (h : n ≤ 31) (h0 : n ≠ 0) :
    doRblock .rbuf n s =
      { afterRblock n s with session := { s.session with rbuf := filled s.session.rbuf s.line n } } :=
  doRblock_eq_of (msg := s.sha.msg) h h0 fun b k => by
    cases b <;> simp [readBuf, byteAt_filled _ _ _ _ h]

theorem doRblock_mbuf_eq (n : Nat) (s : State) (h : n ≤ 22) (h0 : n ≠ 0) :
    doRblock .mbuf n s =
      { afterRblock n s with session := { s.session with mbuf := filled s.session.mbuf s.line n } } :=
  doRblock_eq_of (msg := s.sha.msg) h h0 fun b k => by
    cases b <;> simp [readBuf, byteAt_filled _ _ _ _ h]

end Sys2Proof.Machine
end

