-- ==== Sys2Proof/Laws/Integrity.lean ====
section
/-! SUPPORT. The checks in closed form (spec/42_integrity.md R169, R173) and the linearity of the shift steps (R175). -/

namespace Sys2Proof.Machine

theorem foldl_doCrc8Update (bytes : List Byte) (s : State) :
    bytes.foldl doCrc8Update s = { s with crc8r := bytes.foldl crc8Next s.crc8r } := by
  induction bytes generalizing s with
  | nil => rfl
  | cons b bytes ih => rw [List.foldl_cons, ih]; rfl

theorem foldl_doCrc16Update (bytes : List Byte) (s : State) :
    bytes.foldl doCrc16Update s = { s with crc16r := bytes.foldl crc16Next s.crc16r } := by
  induction bytes generalizing s with
  | nil => rfl
  | cons b bytes ih => rw [List.foldl_cons, ih]; rfl

/-- The CRC8 the block computes over bytes, by table from 0. -/
def crc8Of (bytes : List Byte) : Byte := bytes.foldl crc8Next 0

/-- The CRC16 the block computes over bytes, by table from 0. -/
def crc16Of (bytes : List Byte) : Half := bytes.foldl crc16Next 0

/-- `CRC8_CHECK` in closed form (R169). -/
theorem doCrc8Check_eq (s : State) :
    doCrc8Check s =
      { s with
        crc8r := crc8Of s.session.ident.toList
        flags := { s.flags with crc8Ok := crc8OkOf (crc8Of s.session.ident.toList) } } := by
  simp only [doCrc8Check, foldl_doCrc8Update, crc8Of]

/-- `CRC16_CHECK frame` in closed form (R173). -/
theorem doCrc16Check_eq (f : Frame) (s : State) :
    doCrc16Check f s =
      { s with
        crc16r := crc16Of (frameBytes s f)
        flags := { s.flags with crc16Ok := crc16OkOf (crc16Of (frameBytes s f)) } } := by
  simp only [doCrc16Check, foldl_doCrc16Update, crc16Of]

/-- One shift step of CRC8 is linear over exclusive or (R175). -/
theorem crc8Shift_xor (x y : Byte) : crc8Shift (x ^^^ y) = crc8Shift x ^^^ crc8Shift y := by
  unfold crc8Shift
  rw [BitVec.getLsbD_xor, BitVec.ushiftRight_xor_distrib]
  cases x.getLsbD 0 <;> cases y.getLsbD 0
  · rfl
  · exact BitVec.xor_assoc _ _ _
  · change x >>> 1 ^^^ y >>> 1 ^^^ _ = x >>> 1 ^^^ _ ^^^ y >>> 1
    ac_rfl
  · change x >>> 1 ^^^ y >>> 1 = x >>> 1 ^^^ _ ^^^ (y >>> 1 ^^^ _)
    rw [BitVec.xor_assoc, BitVec.xor_comm (y >>> 1), ← BitVec.xor_assoc 0x8C, BitVec.xor_self, BitVec.zero_xor]

/-- One shift step of CRC16 is linear over exclusive or (R175). -/
theorem crc16Shift_xor (x y : Half) : crc16Shift (x ^^^ y) = crc16Shift x ^^^ crc16Shift y := by
  unfold crc16Shift
  rw [BitVec.getLsbD_xor, BitVec.ushiftRight_xor_distrib]
  cases x.getLsbD 0 <;> cases y.getLsbD 0
  · rfl
  · exact BitVec.xor_assoc _ _ _
  · change x >>> 1 ^^^ y >>> 1 ^^^ _ = x >>> 1 ^^^ _ ^^^ y >>> 1
    ac_rfl
  · change x >>> 1 ^^^ y >>> 1 = x >>> 1 ^^^ _ ^^^ (y >>> 1 ^^^ _)
    rw [BitVec.xor_assoc, BitVec.xor_comm (y >>> 1), ← BitVec.xor_assoc 0xA001, BitVec.xor_self, BitVec.zero_xor]

end Sys2Proof.Machine
end

