-- ==== Sys2Proof/Laws/PerInstr.lean ====
section
/-! SUPPORT. The family RoundTrip: for one instruction, that decoding its code gives it back; one lemma for each
constructor of `Instr`, by its name. -/

namespace Sys2Proof.Laws.RoundTrip

/-- Decoding the code of a well-formed instruction gives it back. -/
def Statement (i : Instr) : Prop := i.wf = true → decode (encode i) = .ok i

/-! ### Operands -/

theorem bufOfCode_codeOfBuf (b : Buf) : bufOfCode (codeOfBuf b) = some b := by cases b <;> rfl

theorem codeOfBuf_ne_const (b : Buf) : codeOfBuf b ≠ codeOfConst := by cases b <;> decide

theorem frameOfCode_codeOfFrame (f : Frame) : frameOfCode (codeOfFrame f) = some f := by cases f <;> rfl

theorem countByte_toNat (n : BitVec 6) : (countByte n).toNat = n.toNat := by
  simp only [countByte, BitVec.toNat_ofNat]
  omega

theorem ofNat_countByte (n : BitVec 6) : BitVec.ofNat 6 (countByte n).toNat = n := by
  rw [countByte_toNat]
  simp

theorem countByte_small (n : BitVec 6) : ¬ 64 ≤ (countByte n).toNat := by
  rw [countByte_toNat]
  omega

/-! ### The constructors -/

theorem reservedHc00 : Statement .reservedHc00 := fun _ => rfl
theorem getIdentifier : Statement .getIdentifier := fun _ => rfl
theorem authenticate : Statement .authenticate := fun _ => rfl
theorem softReset : Statement .softReset := fun _ => rfl
theorem wbitOne : Statement .wbitOne := fun _ => rfl
theorem wbitZero : Statement .wbitZero := fun _ => rfl
theorem rbitSymbol : Statement .rbitSymbol := fun _ => rfl
theorem resetSymbol : Statement .resetSymbol := fun _ => rfl
theorem readRom : Statement .readRom := fun _ => rfl
theorem skipRom : Statement .skipRom := fun _ => rfl
theorem writeChallenge : Statement .writeChallenge := fun _ => rfl
theorem readAuthPage : Statement .readAuthPage := fun _ => rfl
theorem softResetTxn : Statement .softResetTxn := fun _ => rfl
theorem reset : Statement .reset := fun _ => rfl
theorem wbit (b : Bool) : Statement (.wbit b) := fun _ => by cases b <;> rfl
theorem rbit : Statement .rbit := fun _ => rfl

theorem delay (n : BitVec 17) : Statement (.delay n) := fun _ => by
  have hn := n.isLt
  have h2 : (BitVec.ofNat 8 (n.toNat / 65536)).toNat = n.toNat / 65536 := by
    simp only [BitVec.toNat_ofNat]
    omega
  have hsum : (BitVec.ofNat 8 n.toNat).toNat + 256 * (BitVec.ofNat 8 (n.toNat / 256)).toNat +
      65536 * (BitVec.ofNat 8 (n.toNat / 65536)).toNat = n.toNat := by
    simp only [BitVec.toNat_ofNat]
    omega
  have hd : decodeDelay (delayBytes n) = .ok (.delay n, []) := by
    rw [delayBytes, decodeDelay, if_pos (by omega), hsum]
    simp
  change (decodeDelay (delayBytes n)).map Prod.fst = _
  rw [hd]
  rfl

theorem wbyte (v : Byte) : Statement (.wbyte v) := fun _ => rfl
theorem rbyte : Statement .rbyte := fun _ => rfl

theorem wblock (src : BlockSource) (n : BitVec 6) : Statement (.wblock src n) := fun hwf => by
  cases src with
  | buf b =>
    have hfit : (countByte n).toNat ≤ b.length := by
      rw [countByte_toNat]
      simpa [Instr.wf, BlockSource.fits] using hwf
    change (decodeWblock [codeOfBuf b, countByte n]).map Prod.fst = _
    rw [decodeWblock, if_neg (countByte_small n), if_neg (codeOfBuf_ne_const b), bufOfCode_codeOfBuf]
    simp only [if_pos hfit, ofNat_countByte]
    rfl
  | const bytes =>
    have hlen : bytes.length = (countByte n).toNat := by
      rw [countByte_toNat]
      simpa [Instr.wf, BlockSource.fits] using hwf
    change (decodeWblock (codeOfConst :: countByte n :: bytes)).map Prod.fst = _
    rw [decodeWblock, if_neg (countByte_small n), if_pos rfl, if_neg (by omega), ofNat_countByte, ← hlen, List.take_length]
    rfl

theorem rblock (buf : Buf) (n : BitVec 6) : Statement (.rblock buf n) := fun hwf => by
  have hfit : (countByte n).toNat ≤ buf.length := by
    rw [countByte_toNat]
    simpa [Instr.wf] using hwf
  change (decodeRblock [codeOfBuf buf, countByte n]).map Prod.fst = _
  rw [decodeRblock, if_neg (countByte_small n), bufOfCode_codeOfBuf]
  simp only [if_pos hfit, ofNat_countByte]
  rfl

theorem crc8Check : Statement .crc8Check := fun _ => rfl

theorem crc16Check (frame : Frame) : Statement (.crc16Check frame) := fun _ => by
  cases frame <;> rfl

theorem sha1 : Statement .sha1 := fun _ => rfl
theorem deriveSecret : Statement .deriveSecret := fun _ => rfl
theorem computeMac : Statement .computeMac := fun _ => rfl
theorem verifyMac : Statement .verifyMac := fun _ => rfl
theorem drawChal : Statement .drawChal := fun _ => rfl
theorem echoCheck : Statement .echoCheck := fun _ => rfl
theorem crc8Update (byte : Byte) : Statement (.crc8Update byte) := fun _ => rfl
theorem crc16Update (byte : Byte) : Statement (.crc16Update byte) := fun _ => rfl
theorem selectRead : Statement .selectRead := fun _ => rfl
theorem selectSkip : Statement .selectSkip := fun _ => rfl
theorem readIdentifier : Statement .readIdentifier := fun _ => rfl

end Sys2Proof.Laws.RoundTrip
end

