-- ==== Sys2Proof/Laws/Protocol.lean ====
section
/-! SUPPORT. The gate, the results, and the parts of the transactions in closed form
(spec/43_bus_protocol.md R186 to R192). -/

namespace Sys2Proof.Machine

open Sys2Proof.Safety

/-! ### Results (R185) -/

theorem thenOk_ok (f : State → State) {s : State} (h : s.res = .ok) : thenOk f s = f s := by simp [thenOk, h]

theorem thenOk_failed (f : State → State) {s : State} {e : Failure} (h : s.res = .failed e) : thenOk f s = s := by
  simp [thenOk, h]

/-- Either the sequence goes on from a result `ok`, or it stays where it ended. -/
theorem thenOk_cases (f : State → State) (s : State) :
    s.res = .ok ∧ thenOk f s = f s ∨ s.res ≠ .ok ∧ thenOk f s = s := by
  unfold thenOk
  cases h : s.res <;> simp

theorem require_true {flag : State → Bool} {s : State} (f : Failure) (h : flag s = true) : require flag f s = s := by
  simp [require, h]

theorem require_false {flag : State → Bool} {s : State} (f : Failure) (h : flag s = false) :
    require flag f s = raiseFailure f s := by
  simp [require, h]

/-! ### The gate (R186) -/

theorem doReset_eq (s : State) :
    doReset s =
      { s with
        line := resetLine s.cfg.tGap s.line
        flags := { s.flags with present := !answer s.line 0 }, ret := bitValue (answer s.line 0) } := by
  rw [← resetLevel_eq_answer s.cfg.tGap]
  rfl

/-- The gate in closed form. -/
theorem gate_eq (s : State) :
    gate s =
      { s with
        line := resetLine s.cfg.tGap s.line
        flags := { s.flags with present := !answer s.line 0 }, ret := bitValue (answer s.line 0)
        res := if answer s.line 0 then .failed .notPresent else .ok } := by
  unfold gate succeed
  rw [doReset_eq]
  cases h : answer s.line 0 <;> simp [require, raiseFailure]

theorem gate_res (s : State) : (gate s).res = if answer s.line 0 then .failed .notPresent else .ok := by rw [gate_eq]

/-- A transaction on an absent peripheral ends at the gate. -/
theorem thenOk_gate_absent (f : State → State) {s : State} (h : answer s.line 0 = true) :
    thenOk f (gate s) = gate s := thenOk_failed f (e := .notPresent) (by simp [gate_res, h])

theorem thenOk_gate_present (f : State → State) {s : State} (h : answer s.line 0 = false) :
    thenOk f (gate s) = f (gate s) := thenOk_ok f (by simp [gate_res, h])

/-! ### What is sent -/

/-- Bytes sent one after the other by `WBYTE` leave the line after them. -/
theorem sendReadAuthPage_eq (s : State) :
    sendReadAuthPage s =
      { s with
        line := lineAfterBytes s.cfg.tGap [0xA5, 0x00, 0x00] s.line, shreg := 0, seq := { s.seq with bitCnt := 7 } } := by
  simp only [sendReadAuthPage, doWbyte_eq, lineAfterBytes_cons, lineAfterBytes_nil]

/-- The bytes of the challenge, in the order sent. -/
theorem blockBytes_chal (s : State) : blockBytes s (.buf .chal) 12 = s.session.chal.toList := by
  apply List.ext_getElem
  · simp [blockBytes]
  · intro k h1 h2
    have hk : k < 12 := by simpa [blockBytes] using h1
    simp [blockBytes, sourceByte, readBuf, byteAt_lt _ hk]

theorem blockBytes_softReset (s : State) :
    blockBytes s (.const Config.cmdSoftReset) 7 = [0x55, 0x00, 0x00, 0xFF, 0xFF, 0xFF, 0xFF] := rfl

end Sys2Proof.Machine
end

