-- ==== Sys2Proof/Laws/Sequencer.lean ====
section
/-! SUPPORT. What one step of the sequencer is, said once: the inputs that have no effect, the operation `SEQ` names, and
that no operation of a phase moves `SEQ` (spec/10_state.md R28, spec/45_sequencer.md R253). -/

namespace Sys2Proof.Machine

open Sys2Proof.Safety

/-- An input without effect leaves the sequencer's own step (R108, R251). -/
theorem step_of_inputIgnored {s : State} (h : inputIgnored s = true) : step s = sequencerStep (popInput s) := by
  obtain ⟨cfg, session, seq, shreg, flags, crc8r, crc16r, sha, host, chalReq, line, ⟨inputs, chal, no⟩, ret, res⟩ := s
  cases inputs with
  | nil => rfl
  | cons x rest =>
    cases x with
    | quiet => rfl
    | start cmd =>
      have hacc : hostAccepts cmd (popInput ⟨cfg, session, seq, shreg, flags, crc8r, crc16r, sha, host, chalReq, line,
          ⟨.start cmd :: rest, chal, no⟩, ret, res⟩) = false := by
        simp only [inputIgnored, Bool.or_eq_true, decide_eq_true_eq] at h
        rcases h with h | h <;> simp [hostAccepts, popInput, h]
      exact if_neg (by rw [hacc]; exact Bool.false_ne_true)
    | rst us => exact absurd h Bool.false_ne_true
    | op c => exact absurd h Bool.false_ne_true

/-- Where `SEQ` names an operation, the step is that operation and then the transition. -/
theorem sequencerStep_named {s : State} {i : Instr} (h : seqInstr s = some i) :
    sequencerStep s = execThen i afterOperation s := by
  unfold sequencerStep
  split
  · next hp => simp [seqInstr, phaseProgram, hp] at h
  · next hp => simp [seqInstr, phaseProgram, hp] at h
  · next hp => simp [seqInstr, phaseProgram, hp] at h
  · simp only [h]

/-- What stays where it is while an operation of a phase runs: the parameters, the position, the flags `BUSY` and `DONE`,
the outcome registers and the host's inputs. -/
def SamePosition (s t : State) : Prop :=
  t.cfg = s.cfg ∧ t.seq.cmd = s.seq.cmd ∧ t.seq.phase = s.seq.phase ∧ t.seq.step = s.seq.step ∧ t.seq.att = s.seq.att ∧
    t.flags.busy = s.flags.busy ∧ t.flags.done = s.flags.done ∧ t.host = s.host ∧ t.env.inputs = s.env.inputs

theorem samePosition_refl (s : State) : SamePosition s s := ⟨rfl, rfl, rfl, rfl, rfl, rfl, rfl, rfl, rfl⟩

theorem samePosition_trans {s t u : State} (h : SamePosition s t) (k : SamePosition t u) : SamePosition s u := by
  obtain ⟨h1, h2, h3, h4, h5, h6, h7, h8, h9⟩ := h
  obtain ⟨k1, k2, k3, k4, k5, k6, k7, k8, k9⟩ := k
  exact ⟨k1.trans h1, k2.trans h2, k3.trans h3, k4.trans h4, k5.trans h5, k6.trans h6, k7.trans h7, k8.trans h8,
    k9.trans h9⟩

theorem samePosition_doReset (s : State) : SamePosition s (doReset s) := ⟨rfl, rfl, rfl, rfl, rfl, rfl, rfl, rfl, rfl⟩

theorem samePosition_doDelay (n : BitVec 17) (s : State) : SamePosition s (doDelay n s) :=
  ⟨rfl, rfl, rfl, rfl, rfl, rfl, rfl, rfl, rfl⟩

theorem samePosition_doWbyte (v : Byte) (s : State) : SamePosition s (doWbyte v s) := by
  rw [doWbyte_eq]
  exact ⟨rfl, rfl, rfl, rfl, rfl, rfl, rfl, rfl, rfl⟩

theorem samePosition_doWblock (src : BlockSource) (n : Nat) (s : State) : SamePosition s (doWblock src n s) := by
  rw [doWblock_eq]
  exact ⟨rfl, rfl, rfl, rfl, rfl, rfl, rfl, rfl, rfl⟩

theorem samePosition_doRblock {buf : Buf} {n : Nat} (s : State) (h : n ≤ buf.length) :
    SamePosition s (doRblock buf n s) := by
  rw [(doRblock_spec buf n s h).1]
  exact ⟨rfl, rfl, rfl, rfl, rfl, rfl, rfl, rfl, rfl⟩

theorem samePosition_doCrc8Check (s : State) : SamePosition s (doCrc8Check s) := by
  rw [doCrc8Check_eq]
  exact ⟨rfl, rfl, rfl, rfl, rfl, rfl, rfl, rfl, rfl⟩

theorem samePosition_doCrc16Check (f : Frame) (s : State) : SamePosition s (doCrc16Check f s) := by
  rw [doCrc16Check_eq]
  exact ⟨rfl, rfl, rfl, rfl, rfl, rfl, rfl, rfl, rfl⟩

theorem samePosition_doSha1 (s : State) : SamePosition s (doSha1 s) := ⟨rfl, rfl, rfl, rfl, rfl, rfl, rfl, rfl, rfl⟩

theorem samePosition_doDeriveSecret (s : State) : SamePosition s (doDeriveSecret s) := by
  simp only [SamePosition, doDeriveSecret, doSha1, and_self]

theorem samePosition_doComputeMac (s : State) : SamePosition s (doComputeMac s) := by
  simp only [SamePosition, doComputeMac, doSha1, and_self]

theorem samePosition_doVerifyMac (s : State) : SamePosition s (doVerifyMac s) :=
  ⟨rfl, rfl, rfl, rfl, rfl, rfl, rfl, rfl, rfl⟩

theorem samePosition_doEchoCheck (s : State) : SamePosition s (doEchoCheck s) :=
  ⟨rfl, rfl, rfl, rfl, rfl, rfl, rfl, rfl, rfl⟩

theorem samePosition_drawChallenge (s : State) : SamePosition s (drawChallenge s) :=
  ⟨rfl, rfl, rfl, rfl, rfl, rfl, rfl, rfl, rfl⟩

end Sys2Proof.Machine
end

