-- ==== Sys2Proof/Tests/Slice0.lean ====
section
/-! SUPPORT. The model's own tests. Expected results are those of spec/95_test_vectors.md (the vector is named with each
test), or words written out from spec/30_encoding.md; then, for every obligation with hypotheses, a witness that meets
them. -/

namespace Sys2Proof.Tests

-- one theorem after the other: the kernel's evaluations below would otherwise each hold a thread
set_option Elab.async false

open Sys2Proof.Machine Sys2Proof.Safety

/-! ### The standing values of spec/95_test_vectors.md, and small states -/

/-- Configuration T1: `SECRET_TEMPLATE[i]` = i, `SECRET_ID_OFFSET` = 8, every other parameter at its default. -/
def t1 : Config.Params := Config.defaults (Vector.ofFn fun i => BitVec.ofNat 8 i.val) 8 1

/-- T1 with `PRESENCE_RETRY` = true. -/
def t1Retry : Config.Params := { t1 with presenceRetry := true }

/-- n consecutive byte values. -/
def bytesFrom (first n : Nat) : List Byte := (List.range n).map fun i => BitVec.ofNat 8 (first + i)

/-- A byte list as the contents of a buffer. -/
def buffer (n : Nat) (bytes : List Byte) : Vector Byte n := Vector.ofFn fun i => bytes.getD i.val 0

def idA : List Byte := [0x11, 0x22, 0x33, 0x44, 0x55, 0x66, 0x77, 0xFF]
def idSrc : List Byte := [0x11, 0x22, 0x33, 0x44, 0x55, 0x66, 0x77, 0xC8]
def chalA : List Byte := bytesFrom 0xC0 12
def pageA : List Byte := [0xDE, 0xAD, 0xBE, 0xEF] ++ bytesFrom 0x04 24
def r31A : List Byte := pageA ++ [0xFF, 0x9A, 0x06]
def secretA : List Byte := [0x6B, 0x38, 0xEE, 0x6E, 0xEF, 0x2D, 0x9A, 0x5B]
def macA : List Byte :=
  [0x80, 0xF5, 0x71, 0x8B, 0x17, 0x24, 0x1F, 0xBA, 0xB5, 0x72, 0x2E, 0xFF, 0xA9, 0x64, 0x20, 0x8A, 0x33, 0x46, 0x20, 0x8E]
def g22A : List Byte := macA ++ [0x1D, 0x7A]

/-- `bits(X)`: each byte bit 0 first. -/
def bits (bytes : List Byte) : List Bool := bytes.flatMap fun b => (List.range 8).map b.getLsbD

/-- The block after reset, its line about to answer this script. -/
def answering (script : List Bool) (p : Config.Params := t1) : State :=
  let s := State.resetWith p
  { s with line := { s.line with script := script } }

/-- The value on `chal_in` that shows these 12 bytes, byte 0 in bits 7 to 0 (R45). -/
def onChalIn (bytes : List Byte) : BitVec 96 := bytes.foldr (fun b v => v <<< 8 ||| b.zeroExtend 96) 0

/-- With these challenges to be drawn. -/
def drawing (challenges : List (List Byte)) (s : State) : State :=
  { s with env := { s.env with chalScript := challenges.map onChalIn } }

/-- With these inputs to come. -/
def given (inputs : List Input) (s : State) : State := { s with env := { s.env with inputs := inputs } }

/-- With these session registers. -/
def holding (m : Session) (s : State) : State := { s with session := m }

/-- A running block at this place of its sequence. -/
def placed (cmd : BitVec 2) (phase : Phase) (position : BitVec 6) (att : BitVec 2) (s : State) : State :=
  { s with seq := { s.seq with cmd := cmd, phase := phase, step := position, att := att }
           flags := { s.flags with busy := true } }

/-- What is seen of the next state, if there is one. -/
def seen {α : Type} (look : State → α) : Host.Outcome State Fault Refusal → Option α
  | .next t => some (look t)
  | .fault _ => none
  | .refused _ => none

/-- The fault, if there is one. -/
def stopped : Host.Outcome State Fault Refusal → Option Fault
  | .fault f => some f
  | .next _ => none
  | .refused _ => none

/-- The bytes of a buffer. -/
def contents (buf : Buf) (s : State) : List Byte := (List.range buf.length).map (readBuf s buf)

/-- How many pulses pull the line low. -/
def pulses (s : State) : Nat := (traceOf s).count .L

/-! ### Well-formedness: one ill-formed term for each check, and the boundary beside it -/

theorem test_wf_rblock_past_the_buffer : (Instr.rblock .ident 9).wf = false ∧ (Instr.rblock .ident 8).wf = true := by
  decide
theorem test_wf_wblock_past_the_buffer :
    (Instr.wblock (.buf .chal) 13).wf = false ∧ (Instr.wblock (.buf .chal) 12).wf = true := by decide
theorem test_wf_wblock_constant_too_short : (Instr.wblock (.const [0x55]) 2).wf = false := by decide
theorem test_wf_wblock_constant_too_long : (Instr.wblock (.const [0x55, 0x00]) 1).wf = false := by decide

/-! ### Decoding: words written out from the tables of spec/30_encoding.md -/

theorem test_decode_host_codes :
    decode (.hc 0b00) = .ok .reservedHc00 ∧ decode (.hc 0b01) = .ok .getIdentifier ∧
    decode (.hc 0b10) = .ok .authenticate ∧ decode (.hc 0b11) = .ok .softReset := ⟨rfl, rfl, rfl, rfl⟩
theorem test_decode_symbols :
    decode (.sl ⟨6, 64, none⟩) = .ok .wbitOne ∧ decode (.sl ⟨60, 10, none⟩) = .ok .wbitZero ∧
    decode (.sl ⟨6, 64, some 15⟩) = .ok .rbitSymbol ∧ decode (.sl ⟨480, 480, some 550⟩) = .ok .resetSymbol :=
  ⟨rfl, rfl, rfl, rfl⟩
theorem test_decode_no_such_symbol : decode (.sl ⟨480, 480, none⟩) = .error .noSuchSymbol := rfl
theorem test_decode_wire_commands :
    decode (.wire [0b00110011]) = .ok .readRom ∧ decode (.wire [0b11001100]) = .ok .skipRom ∧
    decode (.wire [0b00001111]) = .ok .writeChallenge ∧
    decode (.wire [0b10100101, 0b00000000, 0b00000000]) = .ok .readAuthPage ∧
    decode (.wire [0b01010101, 0, 0, 0b11111111, 0b11111111, 0b11111111, 0b11111111]) = .ok .softResetTxn :=
  ⟨rfl, rfl, rfl, rfl, rfl⟩
theorem test_decode_no_such_wire_command :
    decode (.wire [0xF0]) = .error .noSuchWireCommand ∧ decode (.wire [0xA5, 0x00]) = .error .noSuchWireCommand :=
  ⟨rfl, rfl⟩
theorem test_decode_labels_0_to_7 :
    decode (.uop [0b0000]) = .ok .reset ∧ decode (.uop [0b0001, 0]) = .ok (.wbit false) ∧
    decode (.uop [0b0010]) = .ok .rbit ∧ decode (.uop [0b0011, 0xA0, 0x86, 0x01]) = .ok (.delay 100000) ∧
    decode (.uop [0b0100, 0x33]) = .ok (.wbyte 0x33) ∧ decode (.uop [0b0101]) = .ok .rbyte ∧
    decode (.uop [0b0110, 8, 2, 0x55, 0x00]) = .ok (.wblock (.const [0x55, 0x00]) 2) ∧
    decode (.uop [0b0111, 3, 31]) = .ok (.rblock .rbuf 31) := ⟨rfl, rfl, rfl, rfl, rfl, rfl, rfl, rfl⟩
theorem test_decode_labels_8_to_F :
    decode (.uop [0b1000]) = .ok .crc8Check ∧ decode (.uop [0b1001, 1]) = .ok (.crc16Check .mac) ∧
    decode (.uop [0b1010]) = .ok .sha1 ∧ decode (.uop [0b1011]) = .ok .deriveSecret ∧
    decode (.uop [0b1100]) = .ok .computeMac ∧ decode (.uop [0b1101]) = .ok .verifyMac ∧
    decode (.uop [0b1110]) = .ok .drawChal ∧ decode (.uop [0b1111]) = .ok .echoCheck :=
  ⟨rfl, rfl, rfl, rfl, rfl, rfl, rfl, rfl⟩
theorem test_decode_rejects_by_name :
    decode (.uop [0x10]) = .error .noSuchLabel ∧ decode (.uop [0x1, 2]) = .error .badBit ∧
    decode (.uop [0x3, 0, 0, 2]) = .error .badDelay ∧ decode (.uop [0x7, 9, 1]) = .error .badBuffer ∧
    decode (.uop [0x7, 0, 9]) = .error .badCount ∧ decode (.uop [0x9, 3]) = .error .badFrame ∧
    decode (.uop [0x4]) = .error .operandMissing ∧ decode (.composite [5]) = .error .noSuchComposite :=
  ⟨rfl, rfl, rfl, rfl, rfl, rfl, rfl, rfl⟩
theorem test_decode_table_words :
    decodeTableWord 8 0x2 = some .authenticate ∧ decodeTableWord 4 0x0 = some .reset ∧
    decodeTableWord 8 0x8 = some .crc8Check ∧ decodeTableWord 8 0xCC = some .skipRom ∧
    decodeTableWord 24 0xA50000 = some .readAuthPage ∧ decodeTableWord 56 0x550000FFFFFFFF = some .softResetTxn := by
  decide
theorem test_fetch_runs_the_word :
    seen (fun t => t.flags.echoOk) (step ((answering []).withFetchWord 4 0xF)) = some true := by decide

/-! ### Bit transport (VB-1 to VB-7) -/

theorem test_wbit_one :
    seen traceOf (exec (.wbit true) (answering [])) = some [.L, .W 6, .Z, .W 64] := by decide
theorem test_wbit_zero :
    seen traceOf (exec (.wbit false) (answering [])) = some [.L, .W 60, .Z, .W 10] := by decide
theorem test_wbit_one_symbol : seen traceOf (exec .wbitOne (answering [])) = some [.L, .W 6, .Z, .W 64] := by decide
theorem test_wbit_zero_symbol : seen traceOf (exec .wbitZero (answering [])) = some [.L, .W 60, .Z, .W 10] := by decide
theorem test_rbit :
    seen (fun t => (traceOf t, t.ret, t.line.script)) (exec .rbit (answering [true, false])) =
      some ([.L, .W 6, .Z, .W 9, .S true, .W 55], 1, [false]) := by decide
theorem test_rbit_symbol :
    seen (fun t => (traceOf t, t.ret)) (exec .rbitSymbol (answering [false])) =
      some ([.L, .W 6, .Z, .W 9, .S false, .W 55], 0) := by decide
theorem test_reset_present :
    seen (fun t => (traceOf t, t.ret, t.flags.present)) (exec .reset (answering [false])) =
      some ([.L, .W 480, .Z, .W 70, .S false, .W 410], 0, true) := by decide
theorem test_reset_symbol_absent :
    seen (fun t => (traceOf t, t.ret, t.flags.present)) (exec .resetSymbol (answering [true])) =
      some ([.L, .W 480, .Z, .W 70, .S true, .W 410], 1, false) := by decide
theorem test_delay_merges :
    (seen id (exec .rbit (answering [true]))).bind (fun s => seen traceOf (exec (.delay 2000) s)) =
      some [.L, .W 6, .Z, .W 9, .S true, .W 2055] := by decide

/-! ### Byte and block codec (VC-1 to VC-11) -/

theorem test_wbyte :
    seen traceOf (exec (.wbyte 0x33) (answering [])) = some
      [.L, .W 6, .Z, .W 64, .L, .W 6, .Z, .W 64, .L, .W 60, .Z, .W 10, .L, .W 60, .Z, .W 10,
        .L, .W 6, .Z, .W 64, .L, .W 6, .Z, .W 64, .L, .W 60, .Z, .W 10, .L, .W 60, .Z, .W 10] := by decide +kernel
theorem test_read_rom_is_its_byte :
    seen traceOf (exec .readRom (answering [])) = seen traceOf (exec (.wbyte 0x33) (answering [])) := by decide +kernel
theorem test_skip_rom_slot_order :
    seen (fun t => (traceOf t).filter fun e => e = .W 6 ∨ e = .W 60) (exec .skipRom (answering [])) =
      some [.W 60, .W 60, .W 6, .W 6, .W 60, .W 60, .W 6, .W 6] := by decide +kernel
theorem test_rbyte :
    seen (fun t => (t.ret, t.shreg)) (exec .rbyte (answering [false, false, false, true, false, false, true, true])) =
      some (0xC8, 0xC8) := by decide +kernel
theorem test_rblock :
    seen (fun t => (contents .ident t, pulses t, duration (traceOf t)))
      (exec (.rblock .ident 8) (answering (bits idA))) = some (idA, 64, 4480) := by decide +kernel
theorem test_rblock_overrun : stopped (exec (.rblock .ident 9) (answering [])) = some (.blockOverrun 8 9) := by decide
theorem test_wblock :
    seen (fun t => ((traceOf t).take 32 |>.filter fun e => e = .W 6 ∨ e = .W 60, pulses t, duration (traceOf t)))
      (exec (.wblock (.buf .chal) 12) (holding { Session.zero with chal := buffer 12 chalA } (answering []))) =
      some ([.W 60, .W 60, .W 60, .W 60, .W 60, .W 60, .W 6, .W 6], 96, 6720) := by decide +kernel
theorem test_wblock_overrun :
    stopped (exec (.wblock (.buf .chal) 13) (answering [])) = some (.blockOverrun 12 13) := by decide

/-! ### Integrity (V8-2 to V8-4, V16-1, V16-3, V16-6 to V16-8) -/

theorem test_crc8_update : seen (·.crc8r) (exec (.crc8Update 0x11) (answering [])) = some 0xC3 := by decide
theorem test_crc8_check_accepts :
    seen (fun t => (t.crc8r, t.flags.crc8Ok))
      (exec .crc8Check (holding { Session.zero with ident := buffer 8 idA } (answering []))) = some (0x00, true) := by
  decide +kernel
theorem test_crc8_check_rejects :
    seen (fun t => (t.crc8r, t.flags.crc8Ok))
      (exec .crc8Check (holding { Session.zero with ident := buffer 8 idSrc } (answering []))) = some (0x3D, false) := by
  decide +kernel
theorem test_crc16_update : seen (·.crc16r) (exec (.crc16Update 0xBF) (answering [])) = some 0xB041 := by decide
theorem test_crc16_check_string : (bytesFrom 0x31 9).foldl crc16Next 0 = 0xBB3D := by decide +kernel
theorem test_crc16_check_page :
    seen (fun t => (t.crc16r, t.flags.crc16Ok))
      (exec (.crc16Check .page) (holding { Session.zero with rbuf := buffer 31 r31A } (answering []))) =
      some (0xB001, true) := by decide +kernel
theorem test_crc16_check_soft :
    seen (fun t => (t.crc16r, t.flags.crc16Ok))
      (exec (.crc16Check .soft) (holding { Session.zero with mbuf := buffer 22 [0xFF, 0xFF] } (answering []))) =
      some (0xDCC2, false) := by decide +kernel

/-! ### Authentication engine (VS-1, VS-2, VD-1, VM-1, VM-5, VP-6) -/

theorem test_sha1_abc :
    seen (fun t => (t.sha.h, t.sha.w[79]))
      (exec .sha1
        (let s := answering []
         { s with sha := { s.sha with msg := buffer 64 ([0x61, 0x62, 0x63, 0x80] ++ List.replicate 59 0 ++ [0x18]) } })) =
      some (#v[0xA9993E36, 0x4706816A, 0xBA3E2571, 0x7850C26C, 0x9CD0D89D], 0x822E0879) := by decide +kernel
theorem test_sha1_without_feed_forward :
    seen (·.sha.h) (exec .sha1 (answering [] { t1 with sha1FeedForward := false })) =
      some #v[0x2B6EE1E4, 0x668AE164, 0xD35FF050, 0xAED2EAF2, 0x462458A3] := by decide +kernel
theorem test_derive_secret :
    seen (contents .secret)
      (exec .deriveSecret (holding { Session.zero with ident := buffer 8 idA } (answering []))) = some secretA := by
  decide +kernel

/-- The session registers of VM-1. -/
def vm1 : Session :=
  { Session.zero with
    ident := buffer 8 idA, chal := buffer 12 chalA, rbuf := buffer 31 r31A, mbuf := buffer 22 g22A
    secret := buffer 8 secretA }

theorem test_compute_mac : seen (contents .mach) (exec .computeMac (holding vm1 (answering []))) = some macA := by
  decide +kernel
theorem test_verify_mac :
    seen (·.flags.macOk) (exec .verifyMac (holding { vm1 with mach := buffer 20 macA } (answering []))) = some true ∧
    seen (·.flags.macOk)
      (exec .verifyMac (holding { vm1 with mach := buffer 20 (macA.take 19 ++ [0x8F]) } (answering []))) = some false := by
  decide +kernel
theorem test_draw_chal :
    seen (fun t => (contents .chal t, traceOf t, t.env.chalNo, t.chalReq))
      (exec .drawChal (drawing [chalA] (answering []))) = some (chalA, [.C (buffer 12 chalA)], 1, false) := by
  decide +kernel
theorem test_draw_chal_takes_the_low_byte_first :
    challengeBytes 0xCBCAC9C8C7C6C5C4C3C2C1C0 = buffer 12 chalA := by decide +kernel
theorem test_echo_check :
    seen (·.flags.echoOk)
      (exec .echoCheck (holding { vm1 with echo := buffer 12 (chalA.set 5 0x45) } (answering []))) = some false := by
  decide +kernel

/-! ### Bus protocol (VP-1 to VP-9) -/

theorem test_select_read :
    seen (fun t => (t.res, pulses t, duration (traceOf t))) (exec .selectRead (answering [false])) =
      some (.ok, 9, 1520) := by decide +kernel
theorem test_select_skip_absent :
    seen (fun t => (t.res, traceOf t)) (exec .selectSkip (answering [true])) =
      some (.failed .notPresent, [.L, .W 480, .Z, .W 70, .S true, .W 410]) := by decide +kernel
theorem test_read_identifier :
    seen (fun t => (t.res, contents .ident t, duration (traceOf t)))
      (exec .readIdentifier (answering (false :: bits idSrc))) =
      some (.failed (.integrity .crc8Id), idSrc, 6000) := by decide +kernel
theorem test_write_challenge_mismatch :
    seen (fun t => (t.res, pulses t, duration (traceOf t), t.line.script))
      (exec .writeChallenge (holding vm1 (answering (false :: bits (chalA.set 5 0x45))))) =
      some (.failed (.integrity .echoMismatch), 209, 15520, []) := by decide +kernel
theorem test_read_auth_page :
    seen (fun t => (t.res, duration (traceOf t))) (exec .readAuthPage (answering (false :: bits (r31A ++ g22A)))) =
      some (.ok, 34880) := by decide +kernel
theorem test_read_auth_page_bad_page :
    seen (fun t => (t.res, t.crc16r, duration (traceOf t)))
      (exec .readAuthPage (answering (false :: bits (r31A.set 30 0x07)))) =
      some (.failed (.integrity .crc16Page), 0x70C0, 20560) := by decide +kernel
theorem test_soft_reset_txn :
    seen (fun t => (t.res, duration (traceOf t))) (exec .softResetTxn (answering (false :: bits [0xFB, 0x6E]))) =
      some (.ok, 106560) := by decide +kernel

/-! ### Host commands (P1, P1b, P2, P4, P5, P6) -/

/-- The ports after P5: `STATUS` = 2, `CAUSE` = 0, `DONE` = 1 (R114). -/
theorem test_ports_after_absence :
    seen ports (exec .getIdentifier (answering [true])) = some ⟨false, true, 2, 0, 0, 0, false, false⟩ := by decide +kernel
theorem test_reserved_code : seen id (exec .reservedHc00 (answering [true])) = some (answering [true]) := by decide
theorem test_get_identifier :
    seen (fun t => (t.host, pulses t, duration (traceOf t)))
      (exec .getIdentifier (answering (false :: bits idA))) =
      some (⟨.ok, .none, 0xFF77665544332211, 0⟩, 73, 6000) := by decide +kernel
theorem test_authenticate :
    seen (fun t => (t.host, t.flags.done, contents .secret t))
      (exec .authenticate
        (drawing [chalA] (answering (false :: bits idA ++ false :: bits chalA ++ false :: bits (r31A ++ g22A))))) =
      some (⟨.ok, .none, 0, 0xEFBEADDE⟩, true, List.replicate 8 0) := by decide +kernel
theorem test_authenticate_tampered :
    seen (fun t => (t.host, t.env.chalNo))
      (exec .authenticate
        (drawing [chalA]
          (answering
            (false :: bits idA ++ false :: bits chalA ++ false :: bits (r31A ++ 0x81 :: macA.tail ++ [0x20, 0xAB]))))) =
      some (⟨.authenticationFailure, .none, 0, 0⟩, 1) := by decide +kernel
theorem test_soft_reset :
    seen (fun t => (t.host, pulses t, duration (traceOf t))) (exec .softReset (answering (false :: bits [0xFB, 0x6E]))) =
      some (⟨.ok, .none, 0, 0⟩, 81, 106560) := by decide +kernel
theorem test_soft_reset_absent :
    seen (fun t => (t.host, traceOf t)) (exec .softReset (answering [true])) =
      some (⟨.deviceNotPresent, .none, 0, 0⟩, [.L, .W 480, .Z, .W 70, .S true, .W 410]) := by decide +kernel

/-! ### Witnesses: for every obligation with hypotheses, a state and operands that meet them together -/

/-- The hypotheses of one row of a sequencer table are met: a state at this place whose operation leaves the event. -/
def RowMet (phase : Phase) (position : Nat) (operation : Config.Params → Instr) (event : State → Prop) : Prop :=
  ∃ s t : State, inputIgnored s = true ∧ s.seq.phase = phase ∧ s.seq.step.toNat = position ∧
    exec (operation s.cfg) (popInput s) = .next t ∧ event t

theorem witness_DecodeOfEncodeIsTheOperation : (Instr.wblock (.buf .msg) 63).wf = true := rfl

theorem witness_EncodeOfDecodeIsTheCode :
    decode (.hc 2) = .ok .authenticate ∧ decode (.sl ⟨6, 64, none⟩) = .ok .wbitOne ∧
    decode (.wire [0x33]) = .ok .readRom ∧ decodeUop [0x3, 0xFF, 0xFF, 0x01, 0x5] = .ok (.delay 131071, [0x5]) ∧
    decodeComposite [1, 0xA5, 4] = .ok (.crc16Update 0xA5, [4]) := ⟨rfl, rfl, rfl, rfl, rfl⟩

theorem witness_StepRunsThePresentedOperation :
    ((given [.op (.uop [0x7, 0, 8])] (answering [])).env.inputs = [.op (.uop [0x7, 0, 8])] ∧
      decode (.uop [0x7, 0, 8]) = .ok (.rblock .ident 8)) ∧
    decode (.uop [0x7, 0, 9]) = .error .badCount ∧ decodeTableWord 8 0xF = some .writeChallenge := by decide

theorem witness_StepRunsTheNamedMicroOperation :
    (∃ (s t : State) (i : Instr), inputIgnored s = true ∧ seqInstr s = some i ∧ exec i (popInput s) = .next t) ∧
    ∃ s : State, inputIgnored s = true ∧ s.seq.phase = .idle :=
  ⟨⟨placed 2 .authPage 9 3 (answering []), _, _, rfl, rfl, rfl⟩, answering [], rfl, rfl⟩

theorem witness_AcceptanceStartsTheCommand :
    (let s := given [.start 3] (answering [])
     s.env.inputs = [.start 3] ∧ s.flags.busy = false ∧ (3 : BitVec 2) ≠ 0) ∧
    (let s := given [.start 3] (placed 1 .idPhase 2 1 (answering []))
     s.env.inputs = [.start 3] ∧ s.flags.busy = true) := by decide

theorem witness_RequestsThatHaveNoEffect :
    ((given [.start 0] (answering [])).env.inputs = [.start 0] ∧ (answering []).seq.phase = .idle) ∧
    (given [.start 1] (placed 3 .soft 4 1 (answering []))).env.inputs = [.start 1] ∧
    (given [.start 1] (placed 3 .soft 4 1 (answering []))).flags.busy = true := ⟨⟨rfl, rfl⟩, rfl, rfl⟩

theorem witness_ResetInputCutsTheCommand :
    ∃ (s u : State), s.env.inputs = [.rst 550] ∧ sequencerStep (withEmptyTrace (popInput s)) = .next u :=
  ⟨given [.rst 550] (placed 1 .idPhase 0 1 (answering [false])), _, rfl, rfl⟩

theorem witness_WblockSendsAscendingBytes :
    (12 : BitVec 6).toNat ≤ (BlockSource.buf .chal).length ∧ (0 : BitVec 6).toNat ≤ (BlockSource.const []).length := by
  decide
theorem witness_RblockStoresAscendingBytes : (31 : BitVec 6).toNat ≤ Buf.rbuf.length := by decide
theorem witness_BlockOverrunStops :
    (BlockSource.buf .chal).length < (13 : BitVec 6).toNat ∧ Buf.mbuf.length < (23 : BitVec 6).toNat := by decide

theorem witness_ValidFramesEndInTheComplement :
    ∃ s t : State, exec (.crc16Check .mac) s = .next t ∧ t.flags.crc16Ok = true :=
  ⟨holding vm1 (answering []), _, rfl, by decide +kernel⟩
theorem witness_ChecksumsAreLinear : idA.length = idSrc.length := by decide
theorem witness_OneWrongBitOfAnIdentifierIsSeen :
    ∃ s t : State, crc8Bits 0 s.session.ident.toList = 0 ∧
      exec .crc8Check { s with session := { s.session with
        ident := s.session.ident.set 7 (s.session.ident[7] ^^^ (1#8 <<< 7)) } } = .next t :=
  ⟨holding vm1 (answering []), _, by decide +kernel, rfl⟩

theorem witness_DeriveSecretBuildsItsBlock : (answering []).cfg.secretExtract = Config.secretExtractDefault := rfl
theorem witness_MaskedBitsDoNotReachTheSecret :
    ∃ (s t : State) (ident : Vector Byte 8), exec .deriveSecret s = .next t ∧
      ident[0] &&& 0x3F = s.session.ident[0] &&& 0x3F ∧
      (∀ (k : Nat) (h : k < 8), 0 < k → ident[k] = s.session.ident[k]) ∧ ident ≠ s.session.ident :=
  ⟨holding vm1 (answering []), _, vm1.ident.set 0 0xD1, rfl, by decide +kernel, by decide +kernel, by decide +kernel⟩
theorem witness_ComputeMacBuildsItsBlock : (answering []).cfg.macLayout = Config.macLayoutDefault := rfl
theorem witness_MacCoversWhatTheLayoutNames :
    ∃ (s t : State) (m : Session), s.cfg.macLayout = Config.macLayoutDefault ∧ exec .computeMac s = .next t ∧
      m.secret = s.session.secret ∧ m.chal = s.session.chal ∧
      m.rbuf.toList.take 28 = s.session.rbuf.toList.take 28 ∧
      m.ident.toList.take 7 = s.session.ident.toList.take 7 ∧ m ≠ s.session :=
  ⟨holding vm1 (answering []), _,
    { vm1 with ident := vm1.ident.set 7 0, rbuf := vm1.rbuf.set 28 0, echo := buffer 12 chalA }, rfl, rfl, rfl, rfl,
    by decide +kernel, by decide +kernel, by decide +kernel⟩
theorem witness_DrawChalTakesTheAnswer :
    (drawing [chalA] (answering [])).env.chalScript = onChalIn chalA :: [] := rfl

theorem witness_AbsenceIssuesNothingMore : answer (answering [true]).line 0 = true := rfl
theorem witness_SelectionsSendTheirByte : answer (answering [false]).line 0 = false := rfl
theorem witness_ReadIdentifierChecksEightBytes : answer (answering (false :: bits idA)).line 0 = false := rfl
theorem witness_WriteChallengeComparesTheEcho : answer (answering (false :: bits chalA)).line 0 = false := rfl
theorem witness_ReadAuthPageChecksBothFrames :
    (let s := answering (false :: bits (r31A ++ g22A))
     answer s.line 0 = false ∧ crc16Bits 0 ([0xA5, 0x00, 0x00] ++ answeredBytes s.line 1 31) = 0xB001) ∧
    (let s := answering (false :: bits (r31A.set 30 0x07))
     answer s.line 0 = false ∧ crc16Bits 0 ([0xA5, 0x00, 0x00] ++ answeredBytes s.line 1 31) ≠ 0xB001) := by
  decide +kernel
theorem witness_SoftResetTakesOneAnswer : answer (answering (false :: bits [0xFB, 0x6E])).line 0 = false := rfl
theorem witness_OperationsLastTheirTime :
    (∃ t, (answering [false]).cfg.tGap = .fixed 0 ∧ answer (answering [false]).line 0 = false ∧
      (answering [false]).cfg.nPageRead = .read31 ∧ (answering [false]).cfg.tSoftSettle = 100000 ∧
      exec .readAuthPage (answering [false]) = .next t) ∧
    ∃ t, answer (answering [true]).line 0 = true ∧ exec .selectRead (answering [true]) = .next t :=
  ⟨⟨_, rfl, rfl, rfl, rfl, rfl⟩, _, rfl, rfl⟩

/-- Attempts whose identifier is the one that fails its check (P1b). -/
def badIdentifiers (n : Nat) : List Bool := (List.replicate n (false :: bits idSrc)).flatten

theorem witness_GetIdentifierEndsAtTheFirstVerdict :
    (∀ n, n < 3 → ∀ m, m < n →
      answer (answering (badIdentifiers n)).line (65 * m) = false ∧
        crc8Bits 0 (answeredBytes (answering (badIdentifiers n)).line (65 * m + 1) 8) ≠ 0) ∧
    (let s := answering (badIdentifiers 1 ++ [true])
     s.flags.busy = false ∧ s.cfg.presenceRetry = false ∧ answer s.line 65 = true) ∧
    (let s := answering (badIdentifiers 2 ++ false :: bits idA)
     answer s.line 130 = false ∧ crc8Bits 0 (answeredBytes s.line 131 8) = 0) ∧
    (let s := answering (badIdentifiers 3)
     answer s.line 130 = false ∧ crc8Bits 0 (answeredBytes s.line 131 8) ≠ 0) := by decide +kernel

/-- Soft-reset attempts to which nothing answers but the presence sample (P6b). -/
def badSoftResets (n : Nat) : List Bool := (List.replicate n (false :: bits [0xFF, 0xFF])).flatten

theorem witness_SoftResetEndsAtTheFirstVerdict :
    (∀ n, n < 3 → ∀ m, m < n →
      answer (answering (badSoftResets n)).line (17 * m) = false ∧
        answeredBytes (answering (badSoftResets n)).line (17 * m + 1) 2 ≠ [0xFB, 0x6E]) ∧
    (let s := answering (badSoftResets 1 ++ [true])
     s.flags.busy = false ∧ s.cfg.presenceRetry = false ∧ answer s.line 17 = true) ∧
    (let s := answering (badSoftResets 2 ++ false :: bits [0xFB, 0x6E])
     answer s.line 34 = false ∧ answeredBytes s.line 35 2 = [0xFB, 0x6E]) ∧
    (let s := answering (badSoftResets 3)
     answer s.line 34 = false ∧ answeredBytes s.line 35 2 ≠ [0xFB, 0x6E]) := by decide +kernel

/-- The start of P2. -/
def p2 : State :=
  drawing [chalA] (answering (false :: bits idA ++ false :: bits chalA ++ false :: bits (r31A ++ g22A)))

theorem witness_AuthenticateJudgesTheMac :
    p2.flags.busy = false ∧ answer p2.line 0 = false ∧ answeredBytes p2.line 1 8 = (buffer 8 idA).toList ∧
    crc8Bits 0 (buffer 8 idA).toList = 0 ∧ answer p2.line 65 = false ∧
    answeredBytes p2.line 66 12 = (challengeAnswer p2).toList ∧ answer p2.line 162 = false ∧
    (buffer 31 r31A).toList = answeredBytes p2.line 163 31 ++ List.replicate (31 - 31) 0 ∧
    crc16Bits 0 ([0xA5, 0x00, 0x00] ++ answeredBytes p2.line 163 31) = 0xB001 ∧
    crc16Bits 0 (answeredBytes p2.line 411 22) = 0xB001 := by decide +kernel

theorem witness_SuccessNeedsTheExpectedMac :
    ∃ t, p2.flags.busy = false ∧ exec .authenticate p2 = .next t ∧ t.host.status = .ok :=
  ⟨whenIdle runAuthenticate p2, rfl, rfl, by decide +kernel⟩

theorem witness_AbsenceEndsEveryCommand :
    (let s := answering [true]; s.flags.busy = false ∧ answer s.line 0 = true ∧ s.cfg.presenceRetry = false) ∧
    (let s := answering [true, true, true] t1Retry
     s.flags.busy = false ∧ answer s.line 0 = true ∧ s.cfg.presenceRetry = true ∧ answer s.line 1 = true ∧
       answer s.line 2 = true) := by decide

theorem witness_EveryCommandEndsWithAnOutcome : p2.flags.busy = false := rfl
theorem witness_NoRunIsLongerThanTheLongest :
    p2.flags.busy = false ∧ p2.cfg.tGap = .fixed 0 ∧ p2.cfg.nPageRead = .read31 ∧ p2.cfg.tSoftSettle = 100000 :=
  ⟨rfl, rfl, rfl, rfl⟩
theorem witness_NoOutcomeDependsOnTime : ∃ t, p2.flags.busy = false ∧ exec .authenticate p2 = .next t := ⟨_, rfl, rfl⟩

/-- P2 in a block whose registers still hold something, and in an attempt of nothing. -/
def p2Used : State := { holding vm1 p2 with shreg := 0xFF, ret := 1, seq := ⟨0, .idle, 0, 3, 21, 7⟩ }

theorem witness_NothingPersistsBetweenCommands :
    ∃ t, p2.flags.busy = false ∧ p2Used.flags.busy = false ∧ p2Used.cfg = p2.cfg ∧
      p2Used.line.script = p2.line.script ∧ p2Used.line.sampleNo = p2.line.sampleNo ∧
      p2Used.line.gapNo = p2.line.gapNo ∧ p2Used.env.chalScript = p2.env.chalScript ∧
      p2Used.env.chalNo = p2.env.chalNo ∧ exec .authenticate p2 = .next t :=
  ⟨_, rfl, rfl, rfl, rfl, rfl, rfl, rfl, rfl, rfl⟩

theorem witness_TheLineTellsNothingOfTheSecret :
    ∃ (t : State) (other : Config.Params), p2.flags.busy = false ∧
      other = { p2.cfg with
        secretTemplate := other.secretTemplate, secretIdOffset := other.secretIdOffset
        secretExtract := other.secretExtract, macLayout := other.macLayout, sha1FeedForward := other.sha1FeedForward } ∧
      other.secretTemplate ≠ p2.cfg.secretTemplate ∧ exec .authenticate p2 = .next t :=
  ⟨_, { t1 with secretTemplate := Vector.replicate 64 0xFF, secretExtract := .other }, rfl, rfl, by decide +kernel, rfl⟩

theorem witness_IdentifierPhaseFollowsTheTables :
    RowMet .idPhase 0 (fun _ => .reset) (fun t => t.flags.present = true) ∧
    RowMet .idPhase 0 (fun _ => .reset) (fun t => t.flags.present = false ∧ t.cfg.presenceRetry = false) ∧
    RowMet .idPhase 1 (fun _ => .wbyte 0x33) (fun _ => True) ∧
    RowMet .idPhase 2 (fun _ => .rblock .ident 8) (fun _ => True) ∧
    RowMet .idPhase 3 (fun _ => .crc8Check) (fun t => t.flags.crc8Ok = false ∧ t.seq.att.toNat < 3) ∧
    RowMet .idPhase 3 (fun _ => .crc8Check) (fun t => t.flags.crc8Ok = false ∧ t.seq.att = 3) ∧
    RowMet .idPhase 3 (fun _ => .crc8Check) (fun t => t.flags.crc8Ok = true ∧ t.seq.cmd = 1) ∧
    RowMet .idPhase 3 (fun _ => .crc8Check) (fun t => t.flags.crc8Ok = true ∧ t.seq.cmd = 2) := by
  let bad := holding { Session.zero with ident := buffer 8 idSrc } (answering [])
  exact
    ⟨⟨placed 1 .idPhase 0 1 (answering [false]), _, rfl, rfl, rfl, rfl, rfl⟩,
      ⟨placed 1 .idPhase 0 1 (answering [true]), _, rfl, rfl, rfl, rfl, rfl, rfl⟩,
      ⟨placed 1 .idPhase 1 1 (answering []), _, rfl, rfl, rfl, rfl, trivial⟩,
      ⟨placed 1 .idPhase 2 1 (answering []), _, rfl, rfl, rfl, rfl, trivial⟩,
      ⟨placed 1 .idPhase 3 2 bad, _, rfl, rfl, rfl, rfl, by decide +kernel⟩,
      ⟨placed 1 .idPhase 3 3 bad, _, rfl, rfl, rfl, rfl, by decide +kernel⟩,
      ⟨placed 1 .idPhase 3 3 (holding vm1 (answering [])), _, rfl, rfl, rfl, rfl, by decide +kernel⟩,
      ⟨placed 2 .idPhase 3 1 (holding vm1 (answering [])), _, rfl, rfl, rfl, rfl, by decide +kernel⟩⟩

theorem witness_ChallengePhaseFollowsTheTables :
    RowMet .derive 0 (fun _ => .deriveSecret) (fun _ => True) ∧
    RowMet .authChallenge 0 (fun _ => .reset) (fun t => t.flags.present = true) ∧
    RowMet .authChallenge 0 (fun _ => .reset) (fun t => t.flags.present = false ∧ t.cfg.presenceRetry = false) ∧
    RowMet .authChallenge 1 (fun _ => .wbyte 0xCC) (fun _ => True) ∧
    RowMet .authChallenge 2 (fun _ => .wbyte 0x0F) (fun _ => True) ∧
    RowMet .authChallenge 3 (fun _ => .wblock (.buf .chal) 12) (fun _ => True) ∧
    RowMet .authChallenge 4 (fun _ => .rblock .echo 12) (fun _ => True) ∧
    RowMet .authChallenge 5 (fun _ => .echoCheck) (fun t => t.flags.echoOk = false ∧ t.seq.att.toNat < 3) ∧
    RowMet .authChallenge 5 (fun _ => .echoCheck) (fun t => t.flags.echoOk = false ∧ t.seq.att = 3) ∧
    RowMet .authChallenge 5 (fun _ => .echoCheck) (fun t => t.flags.echoOk = true) := by
  exact
    ⟨⟨placed 2 .derive 0 1 (answering []), _, rfl, rfl, rfl, rfl, trivial⟩,
      ⟨placed 2 .authChallenge 0 1 (answering [false]), _, rfl, rfl, rfl, rfl, rfl⟩,
      ⟨placed 2 .authChallenge 0 1 (answering [true]), _, rfl, rfl, rfl, rfl, rfl, rfl⟩,
      ⟨placed 2 .authChallenge 1 1 (answering []), _, rfl, rfl, rfl, rfl, trivial⟩,
      ⟨placed 2 .authChallenge 2 1 (answering []), _, rfl, rfl, rfl, rfl, trivial⟩,
      ⟨placed 2 .authChallenge 3 1 (answering []), _, rfl, rfl, rfl, rfl, trivial⟩,
      ⟨placed 2 .authChallenge 4 1 (answering []), _, rfl, rfl, rfl, rfl, trivial⟩,
      ⟨placed 2 .authChallenge 5 2 (holding vm1 (answering [])), _, rfl, rfl, rfl, rfl, by decide +kernel⟩,
      ⟨placed 2 .authChallenge 5 3 (holding vm1 (answering [])), _, rfl, rfl, rfl, rfl, by decide +kernel⟩,
      ⟨placed 2 .authChallenge 5 3 (answering []), _, rfl, rfl, rfl, rfl, by decide +kernel⟩⟩

theorem witness_PagePhaseFollowsTheTables :
    RowMet .authPage 0 (fun _ => .reset) (fun t => t.flags.present = true) ∧
    RowMet .authPage 0 (fun _ => .reset) (fun t => t.flags.present = false ∧ t.cfg.presenceRetry = false) ∧
    RowMet .authPage 1 (fun _ => .wbyte 0xCC) (fun _ => True) ∧
    RowMet .authPage 2 (fun _ => .wbyte 0xA5) (fun _ => True) ∧
    RowMet .authPage 3 (fun _ => .wbyte 0x00) (fun _ => True) ∧
    RowMet .authPage 4 (fun _ => .wbyte 0x00) (fun _ => True) ∧
    RowMet .authPage 5 (fun p => .rblock .rbuf p.nPageRead.count) (fun _ => True) ∧
    RowMet .authPage 6 (fun _ => .crc16Check .page) (fun t => t.flags.crc16Ok = true) ∧
    RowMet .authPage 7 (fun _ => .delay 2000) (fun _ => True) ∧
    RowMet .authPage 8 (fun _ => .rblock .mbuf 22) (fun _ => True) ∧
    RowMet .authPage 6 (fun _ => .crc16Check .page) (fun t => t.flags.crc16Ok = false ∧ t.seq.att.toNat < 3) ∧
    RowMet .authPage 6 (fun _ => .crc16Check .page) (fun t => t.flags.crc16Ok = false ∧ t.seq.att = 3) ∧
    RowMet .authPage 9 (fun _ => .crc16Check .mac) (fun t => t.flags.crc16Ok = false ∧ t.seq.att.toNat < 3) ∧
    RowMet .authPage 9 (fun _ => .crc16Check .mac) (fun t => t.flags.crc16Ok = false ∧ t.seq.att = 3) ∧
    RowMet .authPage 9 (fun _ => .crc16Check .mac)
      (fun t => t.flags.crc16Ok = true ∧ ∃ u v, exec .computeMac t = .next u ∧ exec .verifyMac u = .next v) ∧
    ∀ ok, ∃ s : State, inputIgnored s = true ∧ s.seq.phase = .authVerify ∧ s.flags.macOk = ok := by
  exact
    ⟨⟨placed 2 .authPage 0 1 (answering [false]), _, rfl, rfl, rfl, rfl, rfl⟩,
      ⟨placed 2 .authPage 0 1 (answering [true]), _, rfl, rfl, rfl, rfl, rfl, rfl⟩,
      ⟨placed 2 .authPage 1 1 (answering []), _, rfl, rfl, rfl, rfl, trivial⟩,
      ⟨placed 2 .authPage 2 1 (answering []), _, rfl, rfl, rfl, rfl, trivial⟩,
      ⟨placed 2 .authPage 3 1 (answering []), _, rfl, rfl, rfl, rfl, trivial⟩,
      ⟨placed 2 .authPage 4 1 (answering []), _, rfl, rfl, rfl, rfl, trivial⟩,
      ⟨placed 2 .authPage 5 1 (answering []), _, rfl, rfl, rfl, rfl, trivial⟩,
      ⟨placed 2 .authPage 6 1 (holding vm1 (answering [])), _, rfl, rfl, rfl, rfl, by decide +kernel⟩,
      ⟨placed 2 .authPage 7 1 (answering []), _, rfl, rfl, rfl, rfl, trivial⟩,
      ⟨placed 2 .authPage 8 1 (answering []), _, rfl, rfl, rfl, rfl, trivial⟩,
      ⟨placed 2 .authPage 6 2 (answering []), _, rfl, rfl, rfl, rfl, by decide +kernel⟩,
      ⟨placed 2 .authPage 6 3 (answering []), _, rfl, rfl, rfl, rfl, by decide +kernel⟩,
      ⟨placed 2 .authPage 9 2 (answering []), _, rfl, rfl, rfl, rfl, by decide +kernel⟩,
      ⟨placed 2 .authPage 9 3 (answering []), _, rfl, rfl, rfl, rfl, by decide +kernel⟩,
      ⟨placed 2 .authPage 9 3 (holding vm1 (answering [])), _, rfl, rfl, rfl, rfl, by decide +kernel, _, _, rfl, rfl⟩,
      fun ok =>
        let s := placed 2 .authVerify 0 1 (answering [])
        ⟨{ s with flags := { s.flags with macOk := ok } }, rfl, rfl, rfl⟩⟩

theorem witness_SoftResetPhaseFollowsTheTables :
    RowMet .soft 0 (fun _ => .reset) (fun t => t.flags.present = true) ∧
    RowMet .soft 0 (fun _ => .reset) (fun t => t.flags.present = false ∧ t.cfg.presenceRetry = false) ∧
    RowMet .soft 1 (fun _ => .wbyte 0xCC) (fun _ => True) ∧
    RowMet .soft 2 (fun _ => .wblock (.const [0x55, 0x00, 0x00, 0xFF, 0xFF, 0xFF, 0xFF]) 7) (fun _ => True) ∧
    RowMet .soft 3 (fun _ => .rblock .mbuf 2) (fun _ => True) ∧
    RowMet .soft 4 (fun _ => .crc16Check .soft) (fun t => t.flags.crc16Ok = true) ∧
    RowMet .soft 4 (fun _ => .crc16Check .soft) (fun t => t.flags.crc16Ok = false ∧ t.seq.att.toNat < 3) ∧
    RowMet .soft 4 (fun _ => .crc16Check .soft) (fun t => t.flags.crc16Ok = false ∧ t.seq.att = 3) ∧
    RowMet .soft 5 (fun p => .delay p.tSoftSettle) (fun _ => True) := by
  let taken := holding { Session.zero with mbuf := buffer 22 [0xFB, 0x6E] } (answering [])
  exact
    ⟨⟨placed 3 .soft 0 1 (answering [false]), _, rfl, rfl, rfl, rfl, rfl⟩,
      ⟨placed 3 .soft 0 1 (answering [true]), _, rfl, rfl, rfl, rfl, rfl, rfl⟩,
      ⟨placed 3 .soft 1 1 (answering []), _, rfl, rfl, rfl, rfl, trivial⟩,
      ⟨placed 3 .soft 2 1 (answering []), _, rfl, rfl, rfl, rfl, trivial⟩,
      ⟨placed 3 .soft 3 1 (answering []), _, rfl, rfl, rfl, rfl, trivial⟩,
      ⟨placed 3 .soft 4 1 taken, _, rfl, rfl, rfl, rfl, by decide +kernel⟩,
      ⟨placed 3 .soft 4 2 (answering []), _, rfl, rfl, rfl, rfl, by decide +kernel⟩,
      ⟨placed 3 .soft 4 3 (answering []), _, rfl, rfl, rfl, rfl, by decide +kernel⟩,
      ⟨placed 3 .soft 5 1 (answering []), _, rfl, rfl, rfl, rfl, trivial⟩⟩

theorem witness_FinishWritesTheOutcomeAndClears :
    ∀ out, ∃ s : State, inputIgnored s = true ∧ s.seq.phase = .finish .ok .none out :=
  fun out => ⟨placed 2 (.finish .ok .none out) 0 1 (answering []), rfl, rfl⟩

theorem witness_PresenceRetryUsesUpAttempts :
    ∀ phase, phase ∈ [Phase.idPhase, .authChallenge, .authPage, .soft] →
      RowMet phase 0 (fun _ => .reset)
        (fun t => t.flags.present = false ∧ t.cfg.presenceRetry = true ∧ t.seq.att.toNat < 3) ∧
      RowMet phase 0 (fun _ => .reset)
        (fun t => t.flags.present = false ∧ t.cfg.presenceRetry = true ∧ t.seq.att = 3) :=
  fun phase _ =>
    ⟨⟨placed 2 phase 0 2 (answering [true] t1Retry), _, rfl, rfl, rfl, rfl, rfl, rfl, (by decide : 2 < 3)⟩,
      placed 2 phase 0 3 (answering [true] t1Retry), _, rfl, rfl, rfl, rfl, rfl, rfl, rfl⟩

theorem witness_StartedCommandRunsAsItsPseudocode :
    ∃ u : State, (given [.start 2, .quiet, .start 1] p2).env.inputs = .start 2 :: [.quiet, .start 1] ∧
      hostCalm [.quiet, .start 1] ∧ (given [.start 2, .quiet, .start 1] p2).flags.busy = false ∧
      decodeHc 2 = .authenticate ∧ (2 : BitVec 2) ≠ 0 ∧
      exec .authenticate (given [.start 2, .quiet, .start 1] p2) = .next u := by
  refine ⟨_, rfl, ?_, rfl, rfl, by decide, rfl⟩
  intro x hx
  simp only [List.mem_cons, List.not_mem_nil, or_false] at hx
  exact hx.imp id fun h => ⟨1, h⟩

theorem witness_EveryRunningCommandFinishes :
    let s := placed 3 .soft 0 1 (answering [])
    Inv s ∧ s.flags.busy = true ∧ hostCalm s.env.inputs :=
  ⟨⟨by decide, by decide, by decide⟩, rfl, fun _ h => absurd h (List.not_mem_nil)⟩

theorem witness_StepKeepsTheInvariant :
    ∃ s t : State, Inv s ∧ step s = .next t := ⟨placed 3 .soft 0 1 (answering []), _, ⟨by decide, by decide, by decide⟩, rfl⟩

theorem witness_NoFaultIsReached : Inv (placed 2 .authPage 9 3 (answering [])) :=
  ⟨by decide, by decide, by decide⟩

theorem witness_StepKeepsIdleBlocksCleared :
    ∃ s t : State, ClearedWhenIdle s ∧ step s = .next t ∧ t.seq.phase = .idle :=
  ⟨given [.start 0] (answering []), _,
    ⟨by decide, fun c h => by simp [given] at h, fun _ => ⟨rfl, rfl, rfl⟩⟩, rfl, rfl⟩

theorem witness_PortsShowTheOutcomeRegisters :
    (let s := given [.start 0] (answering [])
     s.seq.phase = .idle ∧ inputIgnored s = true) ∧
    (Inv (placed 2 .authPage 9 3 (answering [])) ∧ (ports (placed 2 .authPage 9 3 (answering []))).busy = true) :=
  ⟨⟨rfl, rfl⟩, ⟨by decide, by decide, by decide⟩, rfl⟩

end Sys2Proof.Tests
end

/-! ### What an operation leaves alone

Every operation but a host command keeps `SEQ`, `BUSY`, `DONE` and the outcome registers, and leaves the line side as
quiet as it found it (R9, R28, R135, R281). -/

section
namespace Sys2Proof.Proofs

open Sys2Proof.Machine Sys2Proof.Safety

/-- From s to t the host sees no change on the outcome ports, and a quiet line side stays quiet, part by part. -/
structure PortFrame (s t : State) : Prop where
  busy : t.flags.busy = s.flags.busy
  done : t.flags.done = s.flags.done
  host : t.host = s.host
  drv : s.line.drv = false → t.line.drv = false
  timer : s.line.usTimer = 0 → t.line.usTimer = 0
  chalReq : s.chalReq = false → t.chalReq = false
  trace : canonicalTrace s.line.traceRev = true → canonicalTrace t.line.traceRev = true

/-- A `PortFrame` in which `SEQ` has not moved either. -/
structure OperationFrame (s t : State) : Prop extends PortFrame s t where
  position : SamePosition s t

theorem PortFrame.refl (s : State) : PortFrame s s := ⟨rfl, rfl, rfl, id, id, id, id⟩

theorem PortFrame.trans {s t u : State} (h : PortFrame s t) (k : PortFrame t u) : PortFrame s u where
  busy := k.busy.trans h.busy
  done := k.done.trans h.done
  host := k.host.trans h.host
  drv := k.drv ∘ h.drv
  timer := k.timer ∘ h.timer
  chalReq := k.chalReq ∘ h.chalReq
  trace := k.trace ∘ h.trace

theorem OperationFrame.refl (s : State) : OperationFrame s s := ⟨.refl s, samePosition_refl s⟩

theorem OperationFrame.trans {s t u : State} (h : OperationFrame s t) (k : OperationFrame t u) : OperationFrame s u :=
  ⟨h.toPortFrame.trans k.toPortFrame, samePosition_trans h.position k.position⟩

/-! #### From the line after an operation to its frame -/

theorem operationFrame_of_lineAfter {s t : State} {g : Config.Gap} {ops : List (List Event)} {k : Nat}
    (hpos : SamePosition s t) (hline : LineAfter g s.line t.line ops k) (hchal : s.chalReq = false → t.chalReq = false) :
    OperationFrame s t := by
  obtain ⟨-, -, -, -, -, hbusy, hdone, hhost, -⟩ := id hpos
  exact
    { busy := hbusy, done := hdone, host := hhost, chalReq := hchal, position := hpos
      drv := fun h => by simp [hline.drv, h]
      timer := fun h => by simp [hline.timer, h]
      trace := lineAfter_canonical hline }

theorem operationFrame_of_sameLine {s t : State} (hpos : SamePosition s t) (hline : t.line = s.line)
    (hchal : t.chalReq = s.chalReq) : OperationFrame s t :=
  operationFrame_of_lineAfter hpos (g := s.cfg.tGap) (by rw [hline]; exact lineAfter_none _ _) (hchal.trans ·)

/-! #### The operations on the line (R131 to R134, R151 to R154) and the challenge source (R252) -/

theorem operationFrame_doReset (s : State) : OperationFrame s (doReset s) :=
  operationFrame_of_lineAfter (samePosition_doReset s) (resetLine_after s.cfg.tGap s.line) id

theorem operationFrame_doWbit (b : Bool) (s : State) : OperationFrame s (doWbit b s) :=
  operationFrame_of_lineAfter (samePosition_refl s) (wbitLine_after s.cfg.tGap b s.line) id

theorem operationFrame_doRbit (s : State) : OperationFrame s (doRbit s) :=
  operationFrame_of_lineAfter (samePosition_refl s) (rbitLine_after s.cfg.tGap s.line) id

theorem operationFrame_doDelay (n : BitVec 17) (s : State) : OperationFrame s (doDelay n s) :=
  operationFrame_of_lineAfter (samePosition_doDelay n s) (delayLine_after s.cfg.tGap n s.line) id

theorem operationFrame_doWbyte (v : Byte) (s : State) : OperationFrame s (doWbyte v s) := by
  have hpos := samePosition_doWbyte v s
  rw [doWbyte_eq] at hpos ⊢
  exact operationFrame_of_lineAfter hpos (lineAfterByte_after s.cfg.tGap v s.line) id

theorem operationFrame_doRbyte (s : State) : OperationFrame s (doRbyte s) := by
  rw [doRbyte_eq]
  exact operationFrame_of_lineAfter (samePosition_refl s) (lineAfterReads_after s.cfg.tGap 8 s.line) id

theorem operationFrame_doWblock (src : BlockSource) (n : Nat) (s : State) : OperationFrame s (doWblock src n s) := by
  have hpos := samePosition_doWblock src n s
  rw [doWblock_eq] at hpos ⊢
  exact operationFrame_of_lineAfter hpos (lineAfterBytes_after s.cfg.tGap (blockBytes s src n) s.line) id

theorem operationFrame_doRblock {buf : Buf} {n : Nat} (s : State) (h : n ≤ buf.length) :
    OperationFrame s (doRblock buf n s) := by
  have hpos := samePosition_doRblock s h
  rw [(doRblock_spec buf n s h).1] at hpos ⊢
  exact operationFrame_of_lineAfter hpos (lineAfterReads_after s.cfg.tGap (8 * n) s.line) id

theorem operationFrame_drawChallenge (s : State) : OperationFrame s (drawChallenge s) :=
  operationFrame_of_lineAfter (samePosition_drawChallenge s) (drawChallenge_after s) fun _ => rfl

/-! #### The computations (R165, R210) -/

theorem operationFrame_doCrc8Update (b : Byte) (s : State) : OperationFrame s (doCrc8Update s b) :=
  operationFrame_of_sameLine (samePosition_refl s) rfl rfl

theorem operationFrame_doCrc16Update (b : Byte) (s : State) : OperationFrame s (doCrc16Update s b) :=
  operationFrame_of_sameLine (samePosition_refl s) rfl rfl

theorem operationFrame_doCrc8Check (s : State) : OperationFrame s (doCrc8Check s) :=
  operationFrame_of_sameLine (samePosition_doCrc8Check s) (by rw [doCrc8Check_eq]) (by rw [doCrc8Check_eq])

theorem operationFrame_doCrc16Check (f : Frame) (s : State) : OperationFrame s (doCrc16Check f s) :=
  operationFrame_of_sameLine (samePosition_doCrc16Check f s) (by rw [doCrc16Check_eq]) (by rw [doCrc16Check_eq])

theorem operationFrame_doSha1 (s : State) : OperationFrame s (doSha1 s) :=
  operationFrame_of_sameLine (samePosition_doSha1 s) (doSha1_line s) (doSha1_chalReq s)

theorem operationFrame_doDeriveSecret (s : State) : OperationFrame s (doDeriveSecret s) :=
  operationFrame_of_sameLine (samePosition_doDeriveSecret s) (doDeriveSecret_line s) (doDeriveSecret_chalReq s)

theorem operationFrame_doComputeMac (s : State) : OperationFrame s (doComputeMac s) :=
  operationFrame_of_sameLine (samePosition_doComputeMac s) (doComputeMac_line s) (doComputeMac_chalReq s)

theorem operationFrame_doVerifyMac (s : State) : OperationFrame s (doVerifyMac s) :=
  operationFrame_of_sameLine (samePosition_doVerifyMac s) rfl rfl

theorem operationFrame_doEchoCheck (s : State) : OperationFrame s (doEchoCheck s) :=
  operationFrame_of_sameLine (samePosition_doEchoCheck s) rfl rfl

/-! #### The connectives of a transaction (R116, R265) -/

theorem operationFrame_require {s t : State} (flag : State → Bool) (f : Failure) (h : OperationFrame s t) :
    OperationFrame s (require flag f t) := by
  cases hflag : flag t with
  | true => rwa [require_true f hflag]
  | false =>
    rw [require_false f hflag]
    exact h.trans (operationFrame_of_sameLine (samePosition_refl t) rfl rfl)

theorem operationFrame_thenOk {s t : State} {f : State → State} (h : OperationFrame s t)
    (hf : ∀ u, OperationFrame u (f u)) : OperationFrame s (thenOk f t) := by
  obtain ⟨-, heq⟩ | ⟨-, heq⟩ := thenOk_cases f t
  · rw [heq]; exact h.trans (hf t)
  · rwa [heq]

/-! #### The parts of the transactions (R186 to R192), and the transactions from their gate on -/

theorem operationFrame_gate (s : State) : OperationFrame s (gate s) :=
  operationFrame_require _ _
    ((operationFrame_doReset s).trans (operationFrame_of_sameLine (samePosition_refl _) rfl rfl))

theorem gate_drv (s : State) : (gate s).line.drv = false := by
  rw [gate_eq, (resetLine_after s.cfg.tGap s.line).drv]
  simp [usesLow, resetEvents]

theorem operationFrame_checkIdentifier (s : State) : OperationFrame s (checkIdentifier s) :=
  operationFrame_require _ _ (operationFrame_doCrc8Check s)

theorem operationFrame_checkEcho (s : State) : OperationFrame s (checkEcho s) :=
  operationFrame_require _ _ (operationFrame_doEchoCheck s)

theorem operationFrame_checkPage (s : State) : OperationFrame s (checkPage s) :=
  operationFrame_require _ _ (operationFrame_doCrc16Check .page s)

theorem operationFrame_checkMac (s : State) : OperationFrame s (checkMac s) :=
  operationFrame_require _ _ (operationFrame_doCrc16Check .mac s)

theorem operationFrame_checkSoft (s : State) : OperationFrame s (checkSoft s) :=
  operationFrame_require _ _ (operationFrame_doCrc16Check .soft s)

theorem operationFrame_judgeMac (s : State) : OperationFrame s (judgeMac s) :=
  operationFrame_require _ _ ((operationFrame_doComputeMac s).trans (operationFrame_doVerifyMac _))

theorem operationFrame_exchangeChallenge (s : State) : OperationFrame s (exchangeChallenge s) :=
  ((operationFrame_doWbyte _ s).trans (operationFrame_doWblock _ _ _)).trans
    (operationFrame_doRblock _ (Nat.le_refl 12))

/-- Either page length fits `RBUF` (R100, R191). -/
theorem pageRead_count_le (n : Config.PageRead) : n.count.toNat ≤ Buf.rbuf.length := by cases n <;> decide

theorem operationFrame_readPage (s : State) : OperationFrame s (readPage s) :=
  (((operationFrame_doWbyte _ s).trans (operationFrame_doWbyte _ _)).trans (operationFrame_doWbyte _ _)).trans
    (operationFrame_doRblock _ (pageRead_count_le _))

theorem operationFrame_readMac (s : State) : OperationFrame s (readMac s) :=
  (operationFrame_doDelay _ s).trans (operationFrame_doRblock _ (Nat.le_refl 22))

theorem operationFrame_exchangeSoftReset (s : State) : OperationFrame s (exchangeSoftReset s) :=
  (operationFrame_doWblock _ _ s).trans (operationFrame_doRblock _ (by decide))

theorem operationFrame_doSelectRead (s : State) : OperationFrame (gate s) (doSelectRead s) :=
  operationFrame_thenOk (.refl _) (operationFrame_doWbyte _)

theorem operationFrame_doSelectSkip (s : State) : OperationFrame (gate s) (doSelectSkip s) :=
  operationFrame_thenOk (.refl _) (operationFrame_doWbyte _)

theorem operationFrame_doReadIdentifier (s : State) : OperationFrame (gate s) (doReadIdentifier s) :=
  operationFrame_thenOk
    (operationFrame_thenOk (operationFrame_doSelectRead s) fun u => operationFrame_doRblock u (Nat.le_refl 8))
    operationFrame_checkIdentifier

theorem operationFrame_doWriteChallenge (s : State) : OperationFrame (gate s) (doWriteChallenge s) :=
  operationFrame_thenOk (operationFrame_thenOk (operationFrame_doSelectSkip s) operationFrame_exchangeChallenge)
    operationFrame_checkEcho

theorem operationFrame_doReadAuthPage (s : State) : OperationFrame (gate s) (doReadAuthPage s) :=
  operationFrame_thenOk
    (operationFrame_thenOk
      (operationFrame_thenOk (operationFrame_thenOk (operationFrame_doSelectSkip s) operationFrame_readPage)
        operationFrame_checkPage)
      operationFrame_readMac)
    operationFrame_checkMac

theorem operationFrame_doSoftResetTxn (s : State) : OperationFrame (gate s) (doSoftResetTxn s) :=
  operationFrame_thenOk
    (operationFrame_thenOk (operationFrame_thenOk (operationFrame_doSelectSkip s) operationFrame_exchangeSoftReset)
      operationFrame_checkSoft)
    fun u => operationFrame_doDelay _ u

theorem operationFrame_authAttempt (s : State) : OperationFrame s (authAttempt s) :=
  operationFrame_thenOk
    (operationFrame_thenOk
      (((operationFrame_drawChallenge s).trans (operationFrame_gate _)).trans (operationFrame_doWriteChallenge _))
      fun u => (operationFrame_gate u).trans (operationFrame_doReadAuthPage u))
    operationFrame_judgeMac

/-! #### A retried unit (R241) -/

theorem portFrame_setAtt (n : BitVec 2) (s : State) : PortFrame s (setAtt n s) := ⟨rfl, rfl, rfl, id, id, id, id⟩

/-- The unit ends with this attempt, or goes on with the attempts left. -/
theorem retryFrom_succ_cases (body : State → State) (left : Nat) (s : State) :
    retryFrom body (left + 1) s = body (setAtt (s.seq.att + 1) s) ∨
      retryFrom body (left + 1) s = retryFrom body left (body (setAtt (s.seq.att + 1) s)) := by
  rw [retryFrom]
  split
  · exact .inl rfl
  · exact .inl rfl
  · split
    · exact .inr rfl
    · exact .inl rfl

/-- What every attempt ends in, a retried unit of at least one attempt ends in. -/
theorem retryFrom_ends_as_body {P : State → Prop} {body : State → State} (hbody : ∀ u, P (body u)) (left : Nat)
    (s : State) : P (retryFrom body (left + 1) s) := by
  induction left generalizing s with
  | zero => obtain h | h := retryFrom_succ_cases body 0 s <;> exact h ▸ hbody _
  | succ left ih =>
    obtain h | h := retryFrom_succ_cases body (left + 1) s
    · exact h ▸ hbody _
    · exact h ▸ ih _

theorem portFrame_retryFrom {body : State → State} (hbody : ∀ u, PortFrame u (body u)) (left : Nat) (s : State) :
    PortFrame s (retryFrom body left s) := by
  induction left generalizing s with
  | zero => exact .refl s
  | succ left ih =>
    have htried := (portFrame_setAtt (s.seq.att + 1) s).trans (hbody _)
    obtain h | h := retryFrom_succ_cases body left s
    · exact h ▸ htried
    · exact h ▸ htried.trans (ih _)

theorem retry_ends_as_body {P : State → Prop} {body : State → State} (hbody : ∀ u, P (body u)) (s : State) :
    P (retry body s) := retryFrom_ends_as_body hbody 2 (setAtt 0 s)

theorem portFrame_retry {body : State → State} (hbody : ∀ u, PortFrame u (body u)) (s : State) :
    PortFrame s (retry body s) := (portFrame_setAtt 0 s).trans (portFrame_retryFrom hbody _ _)

end Sys2Proof.Proofs
end

/-! ### How a command ends (R10, R185, R241 to R250, R266) -/

section
namespace Sys2Proof.Proofs

open Sys2Proof.Machine Sys2Proof.Safety

/-- The failures the transactions of a command can raise (R242 to R246, R266). -/
def commandRaises (cmd : BitVec 2) : Failure → Bool
  | .notPresent => true
  | .integrity .none => false
  | .integrity .crc8Id => decide (cmd ≠ 3)
  | .integrity .echoMismatch => decide (cmd = 2)
  | .integrity .crc16Page => decide (cmd = 2)
  | .integrity .crc16Mac => decide (cmd = 2)
  | .integrity .crc16Soft => decide (cmd = 3)
  | .macMismatch => decide (cmd = 2)

/-- A transaction or attempt of this command has a result: `ok`, or a failure the command can have. -/
def HasResult (cmd : BitVec 2) (s : State) : Prop :=
  s.res = .ok ∨ ∃ f, s.res = .failed f ∧ commandRaises cmd f = true

/-! #### The result each operation leaves -/

@[simp] theorem doWbyte_res (v : Byte) (s : State) : (doWbyte v s).res = s.res := by rw [doWbyte_eq]

@[simp] theorem doWblock_res (src : BlockSource) (n : Nat) (s : State) : (doWblock src n s).res = s.res := by
  rw [doWblock_eq]

theorem doRblock_res {buf : Buf} {n : Nat} (s : State) (h : n ≤ buf.length) : (doRblock buf n s).res = s.res := by
  rw [(doRblock_spec buf n s h).1]

@[simp] theorem doCrc8Check_res (s : State) : (doCrc8Check s).res = s.res := by rw [doCrc8Check_eq]

@[simp] theorem doCrc16Check_res (f : Frame) (s : State) : (doCrc16Check f s).res = s.res := by rw [doCrc16Check_eq]

theorem exchangeChallenge_res (s : State) : (exchangeChallenge s).res = s.res := by
  rw [exchangeChallenge, doRblock_res _ (Nat.le_refl 12), doWblock_res, doWbyte_res]

theorem readPage_res (s : State) : (readPage s).res = s.res := by
  rw [readPage, doRblock_res _ (pageRead_count_le _), sendReadAuthPage, doWbyte_res, doWbyte_res, doWbyte_res]

theorem readMac_res (s : State) : (readMac s).res = s.res := by
  rw [readMac, doRblock_res _ (Nat.le_refl 22), doDelay_res]

theorem exchangeSoftReset_res (s : State) : (exchangeSoftReset s).res = s.res := by
  rw [exchangeSoftReset, doRblock_res _ (by decide), doWblock_res]

/-! #### The connectives -/

theorem hasResult_require {cmd : BitVec 2} {f : Failure} (flag : State → Bool) {s : State} (h : s.res = .ok)
    (hf : commandRaises cmd f = true) : HasResult cmd (require flag f s) := by
  cases hflag : flag s with
  | true => rw [require_true f hflag]; exact .inl h
  | false => rw [require_false f hflag]; exact .inr ⟨f, rfl, hf⟩

theorem hasResult_thenOk {cmd : BitVec 2} {f : State → State} {s : State} (h : HasResult cmd s)
    (hf : s.res = .ok → HasResult cmd (f s)) : HasResult cmd (thenOk f s) := by
  obtain ⟨hok, heq⟩ | ⟨-, heq⟩ := thenOk_cases f s
  · rw [heq]; exact hf hok
  · rwa [heq]

/-- An operation that keeps the result goes on with it. -/
theorem hasResult_thenOk_of_res {cmd : BitVec 2} {f : State → State} {s : State} (h : HasResult cmd s)
    (hf : (f s).res = s.res) : HasResult cmd (thenOk f s) := hasResult_thenOk h fun hok => .inl (hf.trans hok)

/-! #### The transactions -/

theorem hasResult_gate (cmd : BitVec 2) (s : State) : HasResult cmd (gate s) := hasResult_require _ rfl rfl

theorem hasResult_doSelectRead (cmd : BitVec 2) (s : State) : HasResult cmd (doSelectRead s) :=
  hasResult_thenOk_of_res (hasResult_gate cmd s) (doWbyte_res _ _)

theorem hasResult_doSelectSkip (cmd : BitVec 2) (s : State) : HasResult cmd (doSelectSkip s) :=
  hasResult_thenOk_of_res (hasResult_gate cmd s) (doWbyte_res _ _)

theorem hasResult_doReadIdentifier {cmd : BitVec 2} (hcmd : cmd ≠ 3) (s : State) :
    HasResult cmd (doReadIdentifier s) :=
  hasResult_thenOk (hasResult_thenOk_of_res (hasResult_doSelectRead cmd s) (doRblock_res _ (Nat.le_refl 8)))
    fun hok => hasResult_require _ ((doCrc8Check_res _).trans hok) (decide_eq_true hcmd)

theorem hasResult_doWriteChallenge (s : State) : HasResult 2 (doWriteChallenge s) :=
  hasResult_thenOk (hasResult_thenOk_of_res (hasResult_doSelectSkip 2 s) (exchangeChallenge_res _))
    fun hok => hasResult_require _ hok rfl

theorem hasResult_doReadAuthPage (s : State) : HasResult 2 (doReadAuthPage s) := by
  have hpage : HasResult 2 (thenOk checkPage (thenOk readPage (doSelectSkip s))) :=
    hasResult_thenOk (hasResult_thenOk_of_res (hasResult_doSelectSkip 2 s) (readPage_res _))
      fun hok => hasResult_require _ ((doCrc16Check_res _ _).trans hok) rfl
  exact hasResult_thenOk (hasResult_thenOk_of_res hpage (readMac_res _))
    fun hok => hasResult_require _ ((doCrc16Check_res _ _).trans hok) rfl

theorem hasResult_doSoftResetTxn (s : State) : HasResult 3 (doSoftResetTxn s) := by
  have hsoft : HasResult 3 (thenOk checkSoft (thenOk exchangeSoftReset (doSelectSkip s))) :=
    hasResult_thenOk (hasResult_thenOk_of_res (hasResult_doSelectSkip 3 s) (exchangeSoftReset_res _))
      fun hok => hasResult_require _ ((doCrc16Check_res _ _).trans hok) rfl
  exact hasResult_thenOk_of_res hsoft (doDelay_res _ _)

theorem hasResult_authAttempt (s : State) : HasResult 2 (authAttempt s) := by
  have hpage : HasResult 2 (thenOk doReadAuthPage (doWriteChallenge (drawChallenge s))) :=
    hasResult_thenOk (hasResult_doWriteChallenge _) fun _ => hasResult_doReadAuthPage _
  exact hasResult_thenOk hpage fun hok =>
    hasResult_require _ (by rw [doVerifyMac_res, doComputeMac_res, hok]) rfl

/-! #### `finish` and what comes before it -/

/-- The arguments of `finish` a command can end with: `OK` with its output, or a failure it can have (R242 to R246). -/
inductive FinishOf (cmd : BitVec 2) : Status → Cause → Output → Prop where
  | success (out : Output) (h : legalFinish cmd .ok .none out = true) : FinishOf cmd .ok .none out
  | failure (f : Failure) (h : commandRaises cmd f = true) : FinishOf cmd (failureStatus f) (failureCause f) .nothing

/-- The failure of a gate, a check or the comparator names its cause (R266). -/
theorem legalFinish_failure {f : Failure} (h : f ≠ .integrity .none) (cmd : BitVec 2) :
    legalFinish cmd (failureStatus f) (failureCause f) .nothing = true := by
  cases f with
  | notPresent => rfl
  | macMismatch => rfl
  | integrity c =>
    cases c with
    | none => exact absurd rfl h
    | _ => rfl

theorem commandRaises_names_cause {cmd : BitVec 2} {f : Failure} (h : commandRaises cmd f = true) :
    f ≠ .integrity .none := by
  rintro rfl
  exact Bool.false_ne_true h

theorem legalFinish_of_finishOf {cmd : BitVec 2} {st : Status} {c : Cause} {out : Output} (h : FinishOf cmd st c out) :
    legalFinish cmd st c out = true := by
  cases h with
  | success out h => exact h
  | failure f h => exact legalFinish_failure (commandRaises_names_cause h) cmd

/-- t is where a command accepted in s ends: `finish` of a state u, whose outcome registers are still those of the
acceptance and whose line is released. -/
def CommandEnd (cmd : BitVec 2) (s t : State) : Prop :=
  ∃ u st c out, PortFrame (accept cmd s) u ∧ u.line.drv = false ∧ FinishOf cmd st c out ∧ t = finish st c out u

theorem commandEnd_conclude {cmd : BitVec 2} {s u : State} {out : Output} (hframe : PortFrame (accept cmd s) u)
    (hdrv : u.line.drv = false) (hres : HasResult cmd u) (hout : legalFinish cmd .ok .none out = true) :
    CommandEnd cmd s (conclude out u) := by
  obtain hok | ⟨f, hf, hraises⟩ := hres
  · exact ⟨u, _, _, _, hframe, hdrv, .success out hout, by simp only [conclude, hok]⟩
  · exact ⟨u, _, _, _, hframe, hdrv, .failure f hraises, by simp only [conclude, hf]⟩

theorem portFrame_doReadIdentifier (s : State) : PortFrame s (doReadIdentifier s) :=
  ((operationFrame_gate s).trans (operationFrame_doReadIdentifier s)).toPortFrame

theorem doReadIdentifier_drv (s : State) : (doReadIdentifier s).line.drv = false :=
  (operationFrame_doReadIdentifier s).drv (gate_drv s)

theorem portFrame_doSoftResetTxn (s : State) : PortFrame s (doSoftResetTxn s) :=
  ((operationFrame_gate s).trans (operationFrame_doSoftResetTxn s)).toPortFrame

theorem doSoftResetTxn_drv (s : State) : (doSoftResetTxn s).line.drv = false :=
  (operationFrame_doSoftResetTxn s).drv (gate_drv s)

theorem retry_drv {body : State → State} (hbody : ∀ u, (body u).line.drv = false) (s : State) :
    (retry body s).line.drv = false := retry_ends_as_body (P := fun u => u.line.drv = false) hbody s

theorem runGetIdentifier_ends (s : State) : CommandEnd 1 s (runGetIdentifier s) :=
  commandEnd_conclude (portFrame_retry portFrame_doReadIdentifier _) (retry_drv doReadIdentifier_drv _)
    (retry_ends_as_body (hasResult_doReadIdentifier (by decide)) _) rfl

theorem runSoftReset_ends (s : State) : CommandEnd 3 s (runSoftReset s) :=
  commandEnd_conclude (portFrame_retry portFrame_doSoftResetTxn _) (retry_drv doSoftResetTxn_drv _)
    (retry_ends_as_body hasResult_doSoftResetTxn _) rfl

/-- After a failed identifier phase `AUTHENTICATE` ends with that failure, else with what its attempts end in (R243). -/
theorem runAuthenticate_ends (s : State) : CommandEnd 2 s (runAuthenticate s) := by
  have hframe := portFrame_retry portFrame_doReadIdentifier (accept 2 s)
  have hdrv := retry_drv doReadIdentifier_drv (accept 2 s)
  have hres := retry_ends_as_body (hasResult_doReadIdentifier (cmd := 2) (by decide)) (accept 2 s)
  rw [runAuthenticate]
  generalize retry doReadIdentifier (accept 2 s) = found at hframe hdrv hres
  obtain hok | ⟨f, hf, hraises⟩ := hres
  · have hloop : PortFrame found (retry authAttempt (doDeriveSecret found)) :=
      (operationFrame_doDeriveSecret found).toPortFrame.trans
        (portFrame_retry (fun u => (operationFrame_authAttempt u).toPortFrame) _)
    simp only [authenticateFrom, hok]
    exact commandEnd_conclude (hframe.trans hloop) (hloop.drv hdrv) (retry_ends_as_body hasResult_authAttempt _) rfl
  · exact ⟨found, _, _, _, hframe, hdrv, .failure f hraises, by simp only [authenticateFrom, conclude, hf]⟩

/-! #### The outcome -/

/-- An outcome of a kind the command can have (R10). -/
def OutcomeFits (cmd : BitVec 2) : Machine.Outcome → Prop
  | .identifier _ => cmd = 1
  | .trustedBytes _ => cmd = 2
  | .done => cmd = 3
  | .deviceNotPresent => True
  | .integrityError c => c ≠ .none ∧ (c = .crc8Id → cmd ≠ 3) ∧ (c = .crc16Soft ↔ cmd = 3)
  | .authenticationFailure => cmd = 2

/-- A success with a legal output is that of one of the three commands (R242 to R244). -/
theorem legalFinish_ok_cases {cmd : BitVec 2} {out : Output} (h : legalFinish cmd .ok .none out = true) :
    cmd = 1 ∨ cmd = 2 ∨ cmd = 3 := by
  cases out with
  | ident => exact .inl (by simpa [legalFinish] using h)
  | trusted => exact .inr (.inl (by simpa [legalFinish] using h))
  | nothing => exact .inr (.inr (by simpa [legalFinish] using h))

theorem outcomeOf_finish {cmd : BitVec 2} {st : Status} {c : Cause} {out : Output} (h : FinishOf cmd st c out)
    (u : State) : ∃ o, outcomeOf cmd (finish st c out u) = some o ∧ OutcomeFits cmd o := by
  cases h with
  | success out h =>
    obtain rfl | rfl | rfl := legalFinish_ok_cases h
    · exact ⟨_, rfl, rfl⟩
    · exact ⟨_, rfl, rfl⟩
    · exact ⟨_, rfl, rfl⟩
  | failure f h =>
    cases f with
    | notPresent => exact ⟨_, rfl, trivial⟩
    | macMismatch => exact ⟨.authenticationFailure, rfl, of_decide_eq_true (p := cmd = 2) h⟩
    | integrity c =>
      refine ⟨.integrityError c, rfl, ?_⟩
      cases c <;> simp_all [commandRaises, OutcomeFits]

theorem commandEnd_outcome {cmd : BitVec 2} {s t : State} (h : CommandEnd cmd s t) :
    ∃ o, t.seq.phase = .idle ∧ t.seq.cmd = 0 ∧ t.flags.busy = false ∧ t.flags.done = true ∧ sessionCleared t ∧
      t.line.drv = false ∧ outcomeOf cmd t = some o ∧ OutcomeFits cmd o := by
  obtain ⟨u, st, c, out, -, hdrv, hfin, rfl⟩ := h
  obtain ⟨o, ho, hfits⟩ := outcomeOf_finish hfin u
  exact ⟨o, rfl, rfl, rfl, rfl, ⟨rfl, rfl, rfl⟩, hdrv, ho, hfits⟩

theorem whenIdle_of_idle (run : State → State) {s : State} (h : s.flags.busy = false) : whenIdle run s = run s := by
  simp [whenIdle, h]

/-- Settles O43: every command ends in `finish` with arguments the command can have, and those give its outcome. -/
theorem everyCommandEndsWithAnOutcome : Obligations.EveryCommandEndsWithAnOutcome := by
  intro s hidle i cmd hmem
  have hend : ∃ t, exec i s = .next t ∧ CommandEnd cmd s t := by
    simp only [List.mem_cons, Prod.mk.injEq, List.not_mem_nil, or_false] at hmem
    obtain ⟨rfl, rfl⟩ | ⟨rfl, rfl⟩ | ⟨rfl, rfl⟩ := hmem
    · exact ⟨_, congrArg Host.Outcome.next (whenIdle_of_idle _ hidle), runGetIdentifier_ends s⟩
    · exact ⟨_, congrArg Host.Outcome.next (whenIdle_of_idle _ hidle), runAuthenticate_ends s⟩
    · exact ⟨_, congrArg Host.Outcome.next (whenIdle_of_idle _ hidle), runSoftReset_ends s⟩
  obtain ⟨t, hexec, hend⟩ := hend
  obtain ⟨o, hphase, hcmd, hbusy, hdone, hcleared, hdrv, ho, hfits⟩ := commandEnd_outcome hend
  exact ⟨t, o, hexec, hphase, hcmd, hbusy, hdone, hcleared, hdrv, ho, hfits⟩

end Sys2Proof.Proofs
end

/-! ### The invariant of the sequencer

Every move of `SEQ` keeps the ports and the line side (`PortFrame`), so that a step keeps the invariant as soon as the
position it leads to is legal (R193, R253). -/

section
namespace Sys2Proof.Proofs

open Sys2Proof.Machine Sys2Proof.Safety

/-! #### What a frame keeps of the invariant -/

theorem quietLine_iff (s : State) : quietLine s = true ↔
    s.line.drv = false ∧ s.line.usTimer = 0 ∧ s.chalReq = false ∧ canonicalTrace s.line.traceRev = true := by
  simp [quietLine, and_assoc]

theorem PortFrame.quietLine {s t : State} (h : PortFrame s t) (hq : quietLine s = true) : quietLine t = true := by
  obtain ⟨hdrv, htimer, hchal, htrace⟩ := (quietLine_iff s).mp hq
  exact (quietLine_iff t).mpr ⟨h.drv hdrv, h.timer htimer, h.chalReq hchal, h.trace htrace⟩

theorem PortFrame.legalHost_eq {s t : State} (h : PortFrame s t) : legalHost t = legalHost s := by
  simp only [legalHost, h.busy, h.done, h.host]

theorem OperationFrame.legalPosition_eq {s t : State} (h : OperationFrame s t) :
    legalPosition t = legalPosition s := by
  obtain ⟨-, hcmd, hphase, hstep, hatt, hbusy, -, -, -⟩ := h.position
  simp only [legalPosition, hcmd, hphase, hstep, hatt, hbusy]

theorem quietLine_of_inv {s : State} (hs : Inv s) : quietLine s = true := hs.2.2

/-- A move of `SEQ` to a legal position keeps the invariant. -/
theorem PortFrame.inv {s t : State} (h : PortFrame s t) (hs : Inv s) (hpos : legalPosition t = true) : Inv t :=
  ⟨hpos, h.legalHost_eq.trans hs.2.1, h.quietLine hs.2.2⟩

theorem OperationFrame.inv {s t : State} (h : OperationFrame s t) (hs : Inv s) : Inv t :=
  h.toPortFrame.inv hs (h.legalPosition_eq.trans hs.1)

theorem portFrame_goTo (p : Phase) (s : State) : PortFrame s (goTo p s) := ⟨rfl, rfl, rfl, id, id, id, id⟩

theorem portFrame_advance (s : State) : PortFrame s (advance s) := ⟨rfl, rfl, rfl, id, id, id, id⟩

theorem portFrame_beginAuthAttempt (att : BitVec 2) (s : State) : PortFrame s (beginAuthAttempt att s) :=
  ((portFrame_setAtt att s).trans (operationFrame_drawChallenge _).toPortFrame).trans (portFrame_goTo _ _)

/-! #### Acceptance, `finish` and `rst` -/

theorem quietLine_accept (cmd : BitVec 2) {s : State} (hq : quietLine s = true) : quietLine (accept cmd s) = true := by
  obtain ⟨hdrv, htimer, hchal, -⟩ := (quietLine_iff s).mp hq
  exact (quietLine_iff _).mpr ⟨hdrv, htimer, hchal, rfl⟩

theorem accept_inv {cmd : BitVec 2} {s : State} (hcmd : cmd ≠ 0) (hq : quietLine s = true) : Inv (accept cmd s) := by
  refine ⟨?_, rfl, quietLine_accept cmd hq⟩
  have hcases : cmd = 1 ∨ cmd = 2 ∨ cmd = 3 := by revert cmd; decide
  obtain rfl | rfl | rfl := hcases <;> rfl

/-- `finish` with legal arguments, the outcome registers 0 until then (R250). -/
theorem finish_inv {cmd : BitVec 2} {st : Status} {c : Cause} {out : Output} {s : State}
    (hfin : legalFinish cmd st c out = true) (hhost : s.host = ⟨.none, .none, 0, 0⟩) (hq : quietLine s = true) :
    Inv (finish st c out s) := by
  refine ⟨rfl, ?_, hq⟩
  cases out <;> simp_all [legalFinish, legalHost, writeOutput]

theorem commandEnd_inv {cmd : BitVec 2} {s t : State} (h : CommandEnd cmd s t) (hq : quietLine s = true) : Inv t := by
  obtain ⟨u, st, c, out, hframe, -, hfin, rfl⟩ := h
  exact finish_inv (legalFinish_of_finishOf hfin) hframe.host (hframe.quietLine (quietLine_accept cmd hq))

/-- `rst` leaves the reset registers and a trace in its form (R300 to R302). -/
theorem cutByReset_inv (us : Nat) (events : List Event) (gapNo : Nat) {s : State} (hq : quietLine s = true) :
    Inv (cutByReset us events gapNo s) := by
  obtain ⟨-, -, -, htrace⟩ := (quietLine_iff s).mp hq
  exact ⟨rfl, rfl, (quietLine_iff _).mpr ⟨rfl, rfl, rfl, canonicalTrace_appendEvents _ htrace⟩⟩

/-! #### Where the sequencer goes -/

/-- A running block has a command. -/
theorem cmd_ne_zero_of_busy {s : State} (h : legalPosition s = true) (hbusy : s.flags.busy = true) : s.seq.cmd ≠ 0 := by
  intro hcmd
  cases hp : s.seq.phase <;> simp [legalPosition, hp, hcmd, hbusy] at h

theorem goTo_finish_inv {s : State} {st : Status} {c : Cause} {out : Output} (hs : Inv s)
    (hbusy : s.flags.busy = true) (hfin : legalFinish s.seq.cmd st c out = true) :
    Inv (goTo (.finish st c out) s) := by
  refine (portFrame_goTo _ s).inv hs ?_
  simp only [legalPosition, goTo_seq, goTo_flags, Bool.and_eq_true, decide_eq_true_eq]
  exact ⟨⟨⟨hbusy, decide_eq_true (cmd_ne_zero_of_busy hs.1 hbusy)⟩, trivial⟩, hfin⟩

/-- The next attempt of a retried unit is numbered 2 or 3 (R29, R241). -/
theorem one_le_att_succ {att : BitVec 2} (h : att.toNat < Config.nAttempts) : 1 ≤ (att + 1).toNat := by
  revert att
  decide

theorem restartUnit_inv {s : State} (hs : Inv s) (hatt : s.seq.att.toNat < Config.nAttempts) :
    Inv (restartUnit s) := by
  have hpos := hs.1
  have hnext := one_le_att_succ hatt
  cases hp : s.seq.phase with
  | idPhase | soft =>
    simp only [restartUnit, hp]
    exact ((portFrame_setAtt _ s).trans (portFrame_goTo _ _)).inv hs (by simp_all [legalPosition])
  | authChallenge | authPage | authVerify =>
    simp only [restartUnit, hp]
    exact (portFrame_beginAuthAttempt _ s).inv hs (by simp_all [legalPosition, beginAuthAttempt])
  | idle | derive | finish => simpa only [restartUnit, hp] using hs

theorem takeFailure_inv {s : State} {f : Failure} (hs : Inv s) (hbusy : s.flags.busy = true)
    (hf : f ≠ .integrity .none) : Inv (takeFailure f s) := by
  unfold takeFailure
  split
  next hretry =>
    rw [Bool.and_eq_true, decide_eq_true_eq] at hretry
    exact restartUnit_inv hs hretry.2
  next => exact goTo_finish_inv hs hbusy (legalFinish_failure hf _)

theorem stepFailure_ne {s : State} {f : Failure} (h : stepFailure s = some f) : f ≠ .integrity .none := by
  rintro rfl
  unfold stepFailure at h
  -- each row of the table either answers no failure or names another one
  split at h <;> simp at h

/-- The next listed step of a phase (R28, R193). -/
theorem advance_inv {s : State} (hs : Inv s)
    (hnext : s.seq.step.toNat + 1 < (phaseProgram s.cfg s.seq.phase).length) : Inv (advance s) := by
  have hpos := hs.1
  refine (portFrame_advance s).inv hs ?_
  cases hp : s.seq.phase with
  | idPhase | authChallenge | authPage | soft => simp_all [legalPosition, phaseProgram]; omega
  | idle | derive | authVerify | finish => simp [phaseProgram, hp] at hnext

theorem phaseEnd_inv {s : State} (hs : Inv s) : Inv (phaseEnd s) := by
  have hpos := hs.1
  cases hp : s.seq.phase with
  | idPhase =>
    simp only [phaseEnd, hp]
    split
    next hcmd => exact goTo_finish_inv hs (by simp_all [legalPosition]) (by rw [hcmd]; rfl)
    next hcmd => exact (portFrame_goTo _ s).inv hs (by simp_all [legalPosition])
  | derive =>
    simp only [phaseEnd, hp]
    exact (portFrame_beginAuthAttempt 1 s).inv hs (by simp_all [legalPosition, beginAuthAttempt])
  | authChallenge =>
    simp only [phaseEnd, hp]
    exact (portFrame_goTo _ s).inv hs (by simp_all [legalPosition])
  | authPage =>
    simp only [phaseEnd, hp]
    have hmac := (operationFrame_doComputeMac s).trans (operationFrame_doVerifyMac _)
    exact (portFrame_goTo _ _).inv (hmac.inv hs) (by simp_all [legalPosition])
  | soft =>
    simp only [phaseEnd, hp]
    exact goTo_finish_inv hs (by simp_all [legalPosition]) (by simp_all [legalPosition, legalFinish])
  | idle | authVerify | finish => simpa only [phaseEnd, hp] using hs

theorem afterOperation_inv {s : State} (hs : Inv s) (hbusy : s.flags.busy = true) : Inv (afterOperation s) := by
  unfold afterOperation
  split
  next f hf => exact takeFailure_inv hs hbusy (stepFailure_ne hf)
  next =>
    split
    next hnext => exact advance_inv hs hnext
    next => exact phaseEnd_inv hs

/-- `AUTH_VERIFY` (R248, R253). -/
theorem verdict_inv {s : State} (hs : Inv s) (hp : s.seq.phase = .authVerify) : Inv (verdict s) := by
  have hpos := hs.1
  have hbusy : s.flags.busy = true := by simp_all [legalPosition]
  have hcmd : s.seq.cmd = 2 := by simp_all [legalPosition]
  unfold verdict
  split
  next => exact goTo_finish_inv hs hbusy (by rw [hcmd]; rfl)
  next => exact takeFailure_inv hs hbusy (by decide)

/-! #### One operation, run whole -/

/-- The outcome registers are 0 while a command runs (R48). -/
theorem host_of_busy {s : State} (hs : Inv s) (hbusy : s.flags.busy = true) : s.host = ⟨.none, .none, 0, 0⟩ := by
  have hhost := hs.2.1
  simp only [legalHost, hbusy, if_true, Bool.and_eq_true, decide_eq_true_eq] at hhost
  obtain ⟨⟨⟨⟨-, hstatus⟩, hcause⟩, hid⟩, htrusted⟩ := hhost
  rw [← hstatus, ← hcause, ← hid, ← htrusted]

/-- A host command is ignored by a running block and runs to its end on an idle one (R240, R251). -/
theorem whenIdle_cases {cmd : BitVec 2} {run : State → State} {s : State} (hrun : CommandEnd cmd s (run s)) :
    OperationFrame s (whenIdle run s) ∨ s.flags.busy = false ∧ ∃ cmd, CommandEnd cmd s (whenIdle run s) := by
  cases hbusy : s.flags.busy with
  | true => exact .inl (by simpa [whenIdle, hbusy] using OperationFrame.refl s)
  | false => exact .inr ⟨rfl, cmd, by rwa [whenIdle_of_idle run hbusy]⟩

/-- What an operation can do, said once: it leaves the ports and `SEQ` alone, or it is a command of an idle block, run to
its end. -/
theorem exec_cases {i : Instr} {s t : State} (h : exec i s = .next t) :
    OperationFrame s t ∨ s.flags.busy = false ∧ ∃ cmd, CommandEnd cmd s t := by
  cases i with
  | getIdentifier => cases h; exact whenIdle_cases (runGetIdentifier_ends s)
  | authenticate => cases h; exact whenIdle_cases (runAuthenticate_ends s)
  | softReset => cases h; exact whenIdle_cases (runSoftReset_ends s)
  | reservedHc00 => cases h; exact .inl (.refl s)
  | wbitOne => cases h; exact .inl (operationFrame_doWbit true s)
  | wbitZero => cases h; exact .inl (operationFrame_doWbit false s)
  | rbitSymbol => cases h; exact .inl (operationFrame_doRbit s)
  | resetSymbol => cases h; exact .inl (operationFrame_doReset s)
  | readRom => cases h; exact .inl (operationFrame_doWbyte _ s)
  | skipRom => cases h; exact .inl (operationFrame_doWbyte _ s)
  | writeChallenge => cases h; exact .inl ((operationFrame_gate s).trans (operationFrame_doWriteChallenge s))
  | readAuthPage => cases h; exact .inl ((operationFrame_gate s).trans (operationFrame_doReadAuthPage s))
  | softResetTxn => cases h; exact .inl ((operationFrame_gate s).trans (operationFrame_doSoftResetTxn s))
  | reset => cases h; exact .inl (operationFrame_doReset s)
  | wbit b => cases h; exact .inl (operationFrame_doWbit b s)
  | rbit => cases h; exact .inl (operationFrame_doRbit s)
  | delay n => cases h; exact .inl (operationFrame_doDelay n s)
  | wbyte v => cases h; exact .inl (operationFrame_doWbyte v s)
  | rbyte => cases h; exact .inl (operationFrame_doRbyte s)
  | wblock src n =>
    simp only [exec, execWblock] at h
    split at h
    · cases h; exact .inl (operationFrame_doWblock src n.toNat s)
    · cases h
  | rblock buf n =>
    simp only [exec, execRblock] at h
    split at h
    · next hfits => cases h; exact .inl (operationFrame_doRblock s hfits)
    · cases h
  | crc8Check => cases h; exact .inl (operationFrame_doCrc8Check s)
  | crc16Check frame => cases h; exact .inl (operationFrame_doCrc16Check frame s)
  | sha1 => cases h; exact .inl (operationFrame_doSha1 s)
  | deriveSecret => cases h; exact .inl (operationFrame_doDeriveSecret s)
  | computeMac => cases h; exact .inl (operationFrame_doComputeMac s)
  | verifyMac => cases h; exact .inl (operationFrame_doVerifyMac s)
  | drawChal => cases h; exact .inl (operationFrame_drawChallenge s)
  | echoCheck => cases h; exact .inl (operationFrame_doEchoCheck s)
  | crc8Update byte => cases h; exact .inl (operationFrame_doCrc8Update byte s)
  | crc16Update byte => cases h; exact .inl (operationFrame_doCrc16Update byte s)
  | selectRead => cases h; exact .inl ((operationFrame_gate s).trans (operationFrame_doSelectRead s))
  | selectSkip => cases h; exact .inl ((operationFrame_gate s).trans (operationFrame_doSelectSkip s))
  | readIdentifier => cases h; exact .inl ((operationFrame_gate s).trans (operationFrame_doReadIdentifier s))

theorem exec_inv {i : Instr} {s t : State} (hs : Inv s) (h : exec i s = .next t) : Inv t := by
  obtain hframe | ⟨-, cmd, hend⟩ := exec_cases h
  · exact hframe.inv hs
  · exact commandEnd_inv hend (quietLine_of_inv hs)

/-! #### The step -/

/-- Where `SEQ` names an operation the block is busy. -/
theorem busy_of_seqInstr {s : State} {i : Instr} (hpos : legalPosition s = true) (hi : seqInstr s = some i) :
    s.flags.busy = true := by
  cases hp : s.seq.phase <;> simp_all [legalPosition, seqInstr, phaseProgram]

/-- The operation `SEQ` names, then its transition. -/
theorem execThen_inv {i : Instr} {s t : State} (hs : Inv s) (hi : seqInstr s = some i)
    (h : execThen i afterOperation s = .next t) : Inv t := by
  have hbusy := busy_of_seqInstr hs.1 hi
  unfold execThen at h
  split at h
  next u hu =>
    cases h
    obtain hframe | ⟨hidle, -⟩ := exec_cases hu
    · exact afterOperation_inv (hframe.inv hs) (hframe.busy.trans hbusy)
    · exact absurd (hbusy.symm.trans hidle) (by decide)
  next => cases h
  next => cases h

theorem sequencerStep_inv {s t : State} (hs : Inv s) (h : sequencerStep s = .next t) : Inv t := by
  have hpos := hs.1
  unfold sequencerStep at h
  split at h
  next => cases h; exact hs
  next hp => cases h; exact verdict_inv hs hp
  next st c out hp =>
    cases h
    simp only [legalPosition, hp, Bool.and_eq_true] at hpos
    obtain ⟨⟨⟨hbusy, -⟩, -⟩, hfin⟩ := hpos
    exact finish_inv hfin (host_of_busy hs hbusy) (quietLine_of_inv hs)
  next =>
    split at h
    next i hi => exact execThen_inv hs hi h
    next => cases h

theorem requestStep_inv {cmd : BitVec 2} {s t : State} (hs : Inv s) (h : requestStep cmd s = .next t) : Inv t := by
  unfold requestStep at h
  split at h
  next hacc =>
    cases h
    simp only [hostAccepts, Bool.and_eq_true, decide_eq_true_eq] at hacc
    exact accept_inv hacc.2 (quietLine_of_inv hs)
  next => exact sequencerStep_inv hs h

theorem resetStep_inv {us : Nat} {s t : State} (hs : Inv s) (h : resetStep us s = .next t) : Inv t := by
  unfold resetStep at h
  split at h <;> cases h <;> exact cutByReset_inv _ _ _ (quietLine_of_inv hs)

theorem presentedStep_inv {c : Code} {s t : State} (hs : Inv s) (h : presentedStep c s = .next t) : Inv t := by
  unfold presentedStep at h
  split at h
  next => exact exec_inv hs h
  next => cases h

theorem popInput_inv {s : State} (hs : Inv s) : Inv (popInput s) := hs

/-- Settles O57, input by input: whatever the host does in a step, the operation, transition, acceptance or reset it
leads to keeps the invariant. -/
theorem stepKeepsTheInvariant : Obligations.StepKeepsTheInvariant := by
  intro s t hs h
  unfold step at h
  split at h
  next => exact sequencerStep_inv hs h
  next => exact sequencerStep_inv (popInput_inv hs) h
  next => exact requestStep_inv (popInput_inv hs) h
  next => exact resetStep_inv (popInput_inv hs) h
  next => exact presentedStep_inv (popInput_inv hs) h

end Sys2Proof.Proofs
end

/-! ### One step of an idle and of a running block (R28, R45, R49, R240, R250, R286) -/

section
namespace Sys2Proof.Proofs

open Sys2Proof.Machine Sys2Proof.Safety

/-- Settles O8: the two vectors of the table are the fields of `Session.zero` and `ShaRegs.zero`. -/
theorem resetStateIsTheTable : Obligations.ResetStateIsTheTable :=
  ⟨rfl, rfl, rfl, rfl, rfl, rfl, rfl, rfl, rfl, rfl, rfl⟩

/-- Settles O56: the reset block is idle at step 0, with no input to come and nothing of a session. -/
theorem resetMeetsTheInvariants : Obligations.ResetMeetsTheInvariants :=
  ⟨⟨rfl, rfl, rfl⟩, rfl, fun _ => List.not_mem_nil, fun _ => ⟨rfl, rfl, rfl⟩⟩

/-- Settles O30: the bytes drawn are the twelve slices of `chal_in`, and a draw is no wait. -/
theorem drawChalTakesTheAnswer : Obligations.DrawChalTakesTheAnswer := by
  intro s
  refine ⟨drawChallenge s, rfl, rfl, fun j hj => ?_, fun c rest hscript => ?_, ?_⟩
  · simp [challengeAnswer, challengeBytes]
  · simp only [chalIn, hscript]
  · simp [traceOf, duration_append]

/-! #### What `SEQ` names, and an idle block -/

theorem sequencerStep_idle {s : State} (h : s.seq.phase = .idle) : sequencerStep s = .next s := by
  simp only [sequencerStep, h]

theorem sequencerStep_finish {s : State} {st : Status} {c : Cause} {out : Output}
    (h : s.seq.phase = .finish st c out) : sequencerStep s = .next (finish st c out s) := by
  simp only [sequencerStep, h]

theorem execThen_next {i : Instr} {s t : State} (next : State → State) (h : exec i s = .next t) :
    execThen i next s = .next (next t) := by
  simp only [execThen, h]

/-- Settles O5: an input without effect leaves the sequencer's own step, which is the operation `SEQ` names. -/
theorem stepRunsTheNamedMicroOperation : Obligations.StepRunsTheNamedMicroOperation := by
  refine ⟨fun s t i hign hi hexec => ?_, fun s hign hphase => ?_⟩
  · rw [step_of_inputIgnored hign, sequencerStep_named (s := popInput s) hi]
    exact execThen_next _ hexec
  · rw [step_of_inputIgnored hign]
    exact sequencerStep_idle hphase

/-! #### Acceptance (R240, R251) -/

theorem firstPhase_eq {cmd : BitVec 2} (h : cmd ≠ 0) : firstPhase cmd = if cmd = 3 then .soft else .idPhase := by
  revert cmd
  decide

theorem step_of_start {s : State} {cmd : BitVec 2} {rest : List Input} (h : s.env.inputs = .start cmd :: rest) :
    step s = requestStep cmd (popInput s) := by
  simp only [step, h]

theorem requestStep_accepted {cmd : BitVec 2} {s : State} (hidle : s.flags.busy = false) (hcmd : cmd ≠ 0) :
    requestStep cmd s = .next (accept cmd s) :=
  if_pos (by simpa [hostAccepts, hidle] using hcmd)

/-- A request without effect is as good as no request (R108, R251). -/
theorem step_of_request_ignored {s : State} {cmd : BitVec 2} {rest : List Input}
    (h : s.env.inputs = .start cmd :: rest) (hign : s.flags.busy = true ∨ cmd = 0) :
    step s = step { s with env := { s.env with inputs := .quiet :: rest } } := by
  have hs : inputIgnored s = true := by simpa [inputIgnored, h] using hign
  rw [step_of_inputIgnored hs, step_of_inputIgnored (s := { s with env := _ }) rfl]
  simp only [popInput, h, List.tail_cons]

/-- Settles O6: an accepted request is `accept`, any other is no request. -/
theorem acceptanceStartsTheCommand : Obligations.AcceptanceStartsTheCommand := by
  refine ⟨fun s cmd rest hinput hidle hcmd => ?_, fun s cmd rest hinput hign => step_of_request_ignored hinput hign⟩
  rw [step_of_start hinput, requestStep_accepted (s := popInput s) hidle hcmd, accept, firstPhase_eq hcmd]
  simp only [popInput, hinput, List.tail_cons, clearInternalFlags]

/-! #### `finish` (R43, R44, R250) -/

/-- Bit i of byte j of a number whose bytes are listed, the least significant first (R43, R44). -/
theorem leValue_testBit (bytes : List Byte) (j : Nat) {i : Nat} (hi : i < 8) :
    (leValue bytes).testBit (8 * j + i) = (bytes.getD j 0).getLsbD i := by
  induction bytes generalizing j with
  | nil => simp [leValue]
  | cons b bytes ih =>
    have hsplit : leValue (b :: bytes) = 2 ^ 8 * leValue bytes + b.toNat := Nat.add_comm _ _
    rw [hsplit, Nat.testBit_two_pow_mul_add _ b.isLt]
    cases j with
    | zero => simp [hi, BitVec.getLsbD]
    | succ j =>
      rw [if_neg (by omega), show 8 * (j + 1) + i - 8 = 8 * j + i by omega, ih]
      rfl

/-- Byte j of an output register is byte j of what it shows. -/
theorem extractByte_leValue {w : Nat} (bytes : List Byte) {j : Nat} (h : 8 * j + 8 ≤ w) :
    (BitVec.ofNat w (leValue bytes)).extractLsb' (8 * j) 8 = bytes.getD j 0 := by
  refine BitVec.eq_of_getLsbD_eq fun i hi => ?_
  rw [BitVec.getLsbD_extractLsb', BitVec.getLsbD_ofNat, leValue_testBit bytes j hi]
  simp [hi, show 8 * j + i < w by omega]

theorem byteAt_eq_getD {n : Nat} (v : Vector Byte n) (k : Nat) : byteAt v k = v.toList.getD k 0 := by
  by_cases hk : k < n
  · rw [byteAt_lt v hk]; simp [hk]
  · rw [byteAt_ge v (Nat.not_lt.mp hk)]; simp [hk]

theorem packIdent_byte (ident : Vector Byte 8) {j : Nat} (h : j < 8) :
    (packIdent ident).extractLsb' (8 * j) 8 = byteAt ident j :=
  (extractByte_leValue _ (by omega)).trans (byteAt_eq_getD ident j).symm

theorem packTrusted_byte (rbuf : Vector Byte 31) {j : Nat} (h : j < 4) :
    (packTrusted rbuf).extractLsb' (8 * j) 8 = byteAt rbuf j := by
  rw [byteAt_eq_getD, packTrusted, extractByte_leValue _ (by omega), List.getD_eq_getElem?_getD,
    List.getElem?_take_of_lt h, List.getD_eq_getElem?_getD]

/-- Settles O52: the step of a block in `FINISH` is `finish`, and the output registers hold the bytes packed. -/
theorem finishWritesTheOutcomeAndClears : Obligations.FinishWritesTheOutcomeAndClears := by
  intro s st c out hign hphase
  refine ⟨finish st c out (popInput s), ?_, rfl, ?_, ?_, ?_⟩
  · rw [step_of_inputIgnored hign, sequencerStep_finish (s := popInput s) hphase]
  · cases out <;> rfl
  · cases out with
    | ident => exact fun j hj => packIdent_byte s.session.ident hj
    | nothing | trusted => rfl
  · cases out with
    | trusted => exact fun j hj => packTrusted_byte s.session.rbuf hj
    | nothing | ident => rfl

/-! #### The ports (R36 to R45, R274, R286) -/

theorem statusCode_le (st : Status) : statusCode st ≤ 4 := by cases st <;> decide

theorem causeCode_le (c : Cause) : causeCode c ≤ 5 := by cases c <;> decide

/-- Settles O60: the codes row by row; an idle block's step leaves the ports alone; and the outcome registers of a
running block are 0. -/
theorem portsShowTheOutcomeRegisters : Obligations.PortsShowTheOutcomeRegisters := by
  refine ⟨rfl, rfl, rfl, rfl, rfl, rfl, rfl, rfl, rfl, rfl, rfl, fun s => ?_, fun s hphase hign => ?_,
    fun s hinv hbusy => ?_⟩
  · exact ⟨rfl, rfl, rfl, rfl, rfl, rfl, rfl, rfl, statusCode_le _, causeCode_le _, rfl⟩
  · exact ⟨popInput s, stepRunsTheNamedMicroOperation.2 s hign hphase, rfl⟩
  · have hhost := host_of_busy hinv hbusy
    have hdone : s.flags.done = false := by
      have hlegal := hinv.2.1
      simp_all [legalHost, ports]
    simp [ports, hhost, interruptRequest, hdone, statusCode, causeCode]

end Sys2Proof.Proofs
end

/-! ### An idle block holds nothing of any session (R48, R314)

The lemmas about the invariant speak of whole states; where `SEQ` goes does not depend on the ports and the line, so
their word on positions holds of every running block. -/

section
namespace Sys2Proof.Proofs

open Sys2Proof.Machine Sys2Proof.Safety

/-! #### What a transition leaves alone -/

/-- From s to t the ports see no change, and what the host does next is the same. -/
structure TransitionFrame (s t : State) : Prop extends PortFrame s t where
  inputs : t.env.inputs = s.env.inputs

theorem TransitionFrame.refl (s : State) : TransitionFrame s s := ⟨.refl s, rfl⟩

theorem TransitionFrame.trans {s t u : State} (h : TransitionFrame s t) (k : TransitionFrame t u) :
    TransitionFrame s u := ⟨h.toPortFrame.trans k.toPortFrame, k.inputs.trans h.inputs⟩

theorem OperationFrame.inputs {s t : State} (h : OperationFrame s t) : t.env.inputs = s.env.inputs := by
  obtain ⟨-, -, -, -, -, -, -, -, hinputs⟩ := h.position
  exact hinputs

theorem transitionFrame_goTo (p : Phase) (s : State) : TransitionFrame s (goTo p s) := ⟨portFrame_goTo p s, rfl⟩

theorem transitionFrame_setAtt_goTo (n : BitVec 2) (p : Phase) (s : State) :
    TransitionFrame s (goTo p (setAtt n s)) := ⟨(portFrame_setAtt n s).trans (portFrame_goTo p _), rfl⟩

theorem transitionFrame_beginAuthAttempt (n : BitVec 2) (s : State) : TransitionFrame s (beginAuthAttempt n s) :=
  ⟨portFrame_beginAuthAttempt n s, rfl⟩

theorem transitionFrame_restartUnit (s : State) : TransitionFrame s (restartUnit s) := by
  unfold restartUnit
  split
  · exact transitionFrame_setAtt_goTo _ _ s
  · exact transitionFrame_setAtt_goTo _ _ s
  · exact transitionFrame_beginAuthAttempt _ s
  · exact transitionFrame_beginAuthAttempt _ s
  · exact transitionFrame_beginAuthAttempt _ s
  · exact .refl s
  · exact .refl s
  · exact .refl s

theorem transitionFrame_takeFailure (f : Failure) (s : State) : TransitionFrame s (takeFailure f s) := by
  unfold takeFailure
  split
  · exact transitionFrame_restartUnit s
  · exact transitionFrame_goTo _ s

theorem transitionFrame_phaseEnd (s : State) : TransitionFrame s (phaseEnd s) := by
  unfold phaseEnd
  split
  · split <;> exact transitionFrame_goTo _ s
  · exact transitionFrame_beginAuthAttempt 1 s
  · exact transitionFrame_goTo _ s
  · have hmac := (operationFrame_doComputeMac s).trans (operationFrame_doVerifyMac _)
    exact .trans ⟨hmac.toPortFrame, hmac.inputs⟩ (transitionFrame_goTo _ _)
  · exact transitionFrame_goTo _ s
  · exact .refl s
  · exact .refl s
  · exact .refl s

theorem transitionFrame_afterOperation (s : State) : TransitionFrame s (afterOperation s) := by
  unfold afterOperation
  split
  · exact transitionFrame_takeFailure _ s
  · split
    · exact ⟨portFrame_advance s, rfl⟩
    · exact transitionFrame_phaseEnd s

theorem transitionFrame_verdict (s : State) : TransitionFrame s (verdict s) := by
  unfold verdict
  split
  · exact transitionFrame_goTo _ s
  · exact transitionFrame_takeFailure _ s

/-! #### Positions without the ports -/

/-- The state with the outcome registers of a running block and a line side at rest. -/
def atRest (s : State) : State :=
  { s with
    flags := { s.flags with done := false }, host := ⟨.none, .none, 0, 0⟩, chalReq := false
    line := { s.line with drv := false, usTimer := 0, traceRev := [] } }

theorem atRest_inv {s : State} (hpos : legalPosition s = true) (hbusy : s.flags.busy = true) : Inv (atRest s) :=
  ⟨hpos, by simp [legalHost, atRest, hbusy], rfl⟩

theorem legalPosition_restartUnit_atRest (s : State) :
    legalPosition (restartUnit (atRest s)) = legalPosition (restartUnit s) := by
  cases hp : s.seq.phase <;> simp [restartUnit, atRest, hp, legalPosition, beginAuthAttempt]

theorem legalPosition_takeFailure_atRest (f : Failure) (s : State) :
    legalPosition (takeFailure f (atRest s)) = legalPosition (takeFailure f s) := by
  unfold takeFailure
  change legalPosition (if retryable s.cfg f && decide (s.seq.att.toNat < Config.nAttempts) then _ else _) = _
  split
  · exact legalPosition_restartUnit_atRest s
  · rfl

theorem phaseEnd_of_idPhase {s : State} (h : s.seq.phase = .idPhase) :
    phaseEnd s = if s.seq.cmd = 1 then goTo (.finish .ok .none .ident) s else goTo .derive s := by
  simp only [phaseEnd, h]

theorem legalPosition_phaseEnd_atRest (s : State) :
    legalPosition (phaseEnd (atRest s)) = legalPosition (phaseEnd s) := by
  cases hp : s.seq.phase with
  | idPhase =>
    rw [phaseEnd_of_idPhase hp, phaseEnd_of_idPhase (s := atRest s) hp]
    change legalPosition (if s.seq.cmd = 1 then _ else _) = _
    split <;> rfl
  | _ => simp [phaseEnd, atRest, hp, legalPosition, beginAuthAttempt]

theorem legalPosition_afterOperation {s : State} (hpos : legalPosition s = true) (hbusy : s.flags.busy = true) :
    legalPosition (afterOperation s) = true := by
  have hrest : legalPosition (afterOperation (atRest s)) = legalPosition (afterOperation s) := by
    unfold afterOperation
    rw [show stepFailure (atRest s) = stepFailure s from rfl]
    split
    · exact legalPosition_takeFailure_atRest _ s
    · change legalPosition (if s.seq.step.toNat + 1 < (phaseProgram s.cfg s.seq.phase).length then _ else _) = _
      split
      · rfl
      · exact legalPosition_phaseEnd_atRest s
  exact hrest ▸ (afterOperation_inv (atRest_inv hpos hbusy) hbusy).1

theorem legalPosition_verdict {s : State} (hpos : legalPosition s = true) (hphase : s.seq.phase = .authVerify) :
    legalPosition (verdict s) = true := by
  have hbusy : s.flags.busy = true := by simp_all [legalPosition]
  have hrest : legalPosition (verdict (atRest s)) = legalPosition (verdict s) := by
    unfold verdict
    change legalPosition (if s.flags.macOk then _ else _) = _
    split
    · rfl
    · exact legalPosition_takeFailure_atRest _ s
  exact hrest ▸ (verdict_inv (atRest_inv hpos hbusy) hphase).1

theorem legalPosition_accept {cmd : BitVec 2} (hcmd : cmd ≠ 0) (s : State) : legalPosition (accept cmd s) = true :=
  (accept_inv (s := atRest s) hcmd rfl).1

/-! #### The step -/

theorem phase_ne_idle_of_busy {s : State} (hpos : legalPosition s = true) (hbusy : s.flags.busy = true) :
    s.seq.phase ≠ .idle := by
  intro hp
  simp [legalPosition, hp, hbusy] at hpos

/-- A running block in a legal position is no idle one. -/
theorem clearedWhenIdle_of_busy {s : State} (hpos : legalPosition s = true) (hbusy : s.flags.busy = true)
    (hhost : hostOnly s) : ClearedWhenIdle s :=
  ⟨hpos, hhost, fun hp => absurd hp (phase_ne_idle_of_busy hpos hbusy)⟩

theorem TransitionFrame.hostOnly {s t : State} (h : TransitionFrame s t) (hs : hostOnly s) : hostOnly t :=
  fun c hc => hs c (h.inputs ▸ hc)

theorem sequencerStep_clearedWhenIdle {s t : State} (hs : ClearedWhenIdle s) (h : sequencerStep s = .next t) :
    ClearedWhenIdle t := by
  have ⟨hpos, hhost, _⟩ := hs
  unfold sequencerStep at h
  split at h
  next => cases h; exact hs
  next hp =>
    cases h
    have hbusy : s.flags.busy = true := by simp_all [legalPosition]
    have hframe := transitionFrame_verdict s
    exact clearedWhenIdle_of_busy (legalPosition_verdict hpos hp) (hframe.busy.trans hbusy) (hframe.hostOnly hhost)
  next => cases h; exact ⟨rfl, hhost, fun _ => ⟨rfl, rfl, rfl⟩⟩
  next =>
    split at h
    next i hi =>
      have hbusy := busy_of_seqInstr hpos hi
      unfold execThen at h
      split at h
      next u hu =>
        cases h
        obtain hop | ⟨hidle, -⟩ := exec_cases hu
        · have hpos' := hop.legalPosition_eq.trans hpos
          have hbusy' := hop.busy.trans hbusy
          have hframe : TransitionFrame s (afterOperation u) :=
            .trans ⟨hop.toPortFrame, hop.inputs⟩ (transitionFrame_afterOperation u)
          exact clearedWhenIdle_of_busy (legalPosition_afterOperation hpos' hbusy') (hframe.busy.trans hbusy)
            (hframe.hostOnly hhost)
        · exact absurd (hbusy.symm.trans hidle) (by decide)
      next => cases h
      next => cases h
    next => cases h

theorem requestStep_clearedWhenIdle {cmd : BitVec 2} {s t : State} (hs : ClearedWhenIdle s)
    (h : requestStep cmd s = .next t) : ClearedWhenIdle t := by
  unfold requestStep at h
  split at h
  next hacc =>
    cases h
    simp only [hostAccepts, Bool.and_eq_true, decide_eq_true_eq] at hacc
    obtain ⟨-, hhost, -⟩ := hs
    exact clearedWhenIdle_of_busy (legalPosition_accept hacc.2 s) rfl hhost
  next => exact sequencerStep_clearedWhenIdle hs h

theorem resetStep_clearedWhenIdle {us : Nat} {s t : State} (hs : ClearedWhenIdle s) (h : resetStep us s = .next t) :
    ClearedWhenIdle t := by
  obtain ⟨-, hhost, -⟩ := hs
  have hcut : ∀ events gapNo, ClearedWhenIdle (cutByReset us events gapNo s) :=
    fun _ _ => ⟨rfl, hhost, fun _ => ⟨rfl, rfl, rfl⟩⟩
  unfold resetStep at h
  split at h <;> cases h <;> exact hcut _ _

theorem popInput_clearedWhenIdle {s : State} (hs : ClearedWhenIdle s) : ClearedWhenIdle (popInput s) := by
  obtain ⟨hpos, hhost, hcleared⟩ := hs
  exact ⟨hpos, fun c hc => hhost c (List.mem_of_mem_tail hc), hcleared⟩

/-- Settles O59, input by input: a step ends in `finish` or `rst`, which clear the session, in a running block, or in
the idle block it began with. -/
theorem stepKeepsIdleBlocksCleared : Obligations.StepKeepsIdleBlocksCleared := by
  intro s t hs h
  unfold step at h
  split at h
  next => exact sequencerStep_clearedWhenIdle hs h
  next => exact sequencerStep_clearedWhenIdle (popInput_clearedWhenIdle hs) h
  next => exact requestStep_clearedWhenIdle (popInput_clearedWhenIdle hs) h
  next => exact resetStep_clearedWhenIdle (popInput_clearedWhenIdle hs) h
  next c _ hinput => exact absurd (hinput ▸ List.mem_cons_self) (hs.2.1 c)

end Sys2Proof.Proofs
end

/-! ### Two blocks side by side

A relation between states that every operation of a transaction keeps is kept by the transactions and by a retried unit
(R185 to R192, R241): what one block's run tells of another's (R25, R320). -/

section
namespace Sys2Proof.Proofs

open Sys2Proof.Machine Sys2Proof.Safety

/-! #### A retried unit, attempt by attempt (R241) -/

/-- One attempt of a retried unit: the counter goes up and the body runs. -/
def attempt (body : State → State) (s : State) : State := body (setAtt (s.seq.att + 1) s)

/-- An attempt that ends so is followed by another while one is left (R241, R247, R248). -/
def retries (s : State) : Bool :=
  match s.res with
  | .failed f => retryable s.cfg f
  | .ok => false
  | .none => false

theorem retries_of_failed {s : State} {f : Failure} (h : s.res = .failed f) : retries s = retryable s.cfg f := by
  simp only [retries, h]

theorem retries_of_ok {s : State} (h : s.res = .ok) : retries s = false := by
  simp only [retries, h]

theorem retryFrom_succ (body : State → State) (left : Nat) (s : State) :
    retryFrom body (left + 1) s =
      if retries (attempt body s) then retryFrom body left (attempt body s) else attempt body s := by
  rw [retryFrom, attempt]
  cases h : (body (setAtt (s.seq.att + 1) s)).res with
  | none => simp only [h, retries, Bool.false_eq_true, if_false]
  | ok => simp only [h, retries, Bool.false_eq_true, if_false]
  | failed f => simp only [retries_of_failed h]

theorem retryFrom_of_retries {body : State → State} {s : State} (left : Nat) (h : retries (attempt body s) = true) :
    retryFrom body (left + 1) s = retryFrom body left (attempt body s) := by
  rw [retryFrom_succ, if_pos h]

theorem retryFrom_of_not_retries {body : State → State} {s : State} (left : Nat)
    (h : retries (attempt body s) = false) : retryFrom body (left + 1) s = attempt body s := by
  rw [retryFrom_succ, h, if_neg Bool.false_ne_true]

/-- The last attempt ends the unit whatever its result. -/
theorem retryFrom_one (body : State → State) (s : State) : retryFrom body 1 s = attempt body s := by
  rw [retryFrom_succ]
  split <;> rfl

/-- Attempts related by Q, and by R where another follows, end the unit related by Q. -/
theorem retryFrom_related {R Q : State → State → Prop} {body : State → State}
    (hbody : ∀ {s u}, R s u → Q (attempt body s) (attempt body u)) (hretries : ∀ {s u}, Q s u → retries u = retries s)
    (hmore : ∀ {s u}, Q s u → retries s = true → R s u) (left : Nat) {s u : State}
    (hfirst : Q (attempt body s) (attempt body u)) :
    Q (retryFrom body (left + 1) s) (retryFrom body (left + 1) u) := by
  induction left generalizing s u with
  | zero => rwa [retryFrom_one, retryFrom_one]
  | succ left ih =>
    rw [retryFrom_succ, retryFrom_succ body _ u, hretries hfirst]
    split
    next hgo => exact ih (hbody (hmore hfirst hgo))
    next => exact hfirst

/-- An authentication attempt up to the MAC (R246): a fresh challenge and the two transactions. -/
def authTransactions (s : State) : State := thenOk doReadAuthPage (doWriteChallenge (drawChallenge s))

theorem authAttempt_eq (s : State) : authAttempt s = thenOk judgeMac (authTransactions s) := rfl

/-! #### What keeps a relation -/

/-- The operation f leads related states to related states. -/
def Respects (R : State → State → Prop) (f : State → State) : Prop := ∀ ⦃s u⦄, R s u → R (f s) (f u)

/-- Related states agree in what a transaction decides by, and its operations keep the relation. -/
structure KeptByOperations (R : State → State → Prop) : Prop where
  res : ∀ ⦃s u⦄, R s u → u.res = s.res
  att : ∀ ⦃s u⦄, R s u → u.seq.att = s.seq.att
  present : ∀ ⦃s u⦄, R s u → u.flags.present = s.flags.present
  crc8Ok : ∀ ⦃s u⦄, R s u → u.flags.crc8Ok = s.flags.crc8Ok
  crc16Ok : ∀ ⦃s u⦄, R s u → u.flags.crc16Ok = s.flags.crc16Ok
  echoOk : ∀ ⦃s u⦄, R s u → u.flags.echoOk = s.flags.echoOk
  pageRead : ∀ ⦃s u⦄, R s u → u.cfg.nPageRead = s.cfg.nPageRead
  presenceRetry : ∀ ⦃s u⦄, R s u → u.cfg.presenceRetry = s.cfg.presenceRetry
  setRes : ∀ r, Respects R fun s => { s with res := r }
  setAtt : ∀ n, Respects R (setAtt n)
  doReset : Respects R doReset
  doWbyte : ∀ v, Respects R (doWbyte v)
  sendChallenge : Respects R (doWblock (.buf .chal) 12)
  sendSoftReset : Respects R (doWblock (.const Config.cmdSoftReset) 7)
  readIdent : Respects R (doRblock .ident 8)
  readEcho : Respects R (doRblock .echo 12)
  readRbuf : ∀ n : Config.PageRead, Respects R (doRblock .rbuf n.count.toNat)
  readMbuf : ∀ n, n ≤ 22 → n ≠ 0 → Respects R (doRblock .mbuf n)
  doDelay : ∀ n, Respects R (doDelay n)
  settle : Respects R settle
  doCrc8Check : Respects R doCrc8Check
  doCrc16Check : ∀ f, Respects R (doCrc16Check f)
  doEchoCheck : Respects R doEchoCheck
  drawChallenge : Respects R drawChallenge

namespace KeptByOperations

variable {R : State → State → Prop} (h : KeptByOperations R)
include h

theorem retries_eq {s u : State} (hR : R s u) : retries u = retries s := by
  simp only [retries, h.res hR]
  split
  next f _ => cases f <;> simp [retryable, h.presenceRetry hR]
  next => rfl
  next => rfl

theorem require {flag : State → Bool} (f : Failure) {s u : State} (hR : R s u) (hflag : flag u = flag s) :
    R (require flag f s) (require flag f u) := by
  cases hs : flag s with
  | true => rwa [require_true f hs, require_true f (hflag.trans hs)]
  | false =>
    rw [require_false f hs, require_false f (hflag.trans hs)]
    exact h.setRes (.failed f) hR

theorem thenOk {f : State → State} (hf : Respects R f) : Respects R (thenOk f) := by
  intro s u hR
  obtain ⟨hok, heq⟩ | ⟨hne, heq⟩ := thenOk_cases f s
  · rw [heq, thenOk_ok f ((h.res hR).trans hok)]
    exact hf hR
  · obtain ⟨hok, -⟩ | ⟨-, hu⟩ := thenOk_cases f u
    · exact absurd ((h.res hR).symm.trans hok) hne
    · rwa [heq, hu]

/-! #### The transactions (R186 to R192) -/

theorem gate : Respects R gate := fun _ _ hR =>
  have hreset := h.setRes .ok (h.doReset hR)
  h.require _ hreset (h.present hreset)

theorem checkIdentifier : Respects R checkIdentifier := fun _ _ hR =>
  h.require _ (h.doCrc8Check hR) (h.crc8Ok (h.doCrc8Check hR))

theorem checkEcho : Respects R checkEcho := fun _ _ hR =>
  h.require _ (h.doEchoCheck hR) (h.echoOk (h.doEchoCheck hR))

theorem checkCrc16 (frame : Frame) (c : Cause) :
    Respects R fun s => Machine.require (fun t => t.flags.crc16Ok) (.integrity c) (Machine.doCrc16Check frame s) :=
  fun _ _ hR => h.require _ (h.doCrc16Check frame hR) (h.crc16Ok (h.doCrc16Check frame hR))

theorem exchangeChallenge : Respects R exchangeChallenge := fun _ _ hR =>
  h.readEcho (h.sendChallenge (h.doWbyte _ hR))

theorem readPage : Respects R readPage := by
  intro s u hR
  rw [Machine.readPage, Machine.readPage, h.pageRead hR]
  exact h.readRbuf _ (h.doWbyte _ (h.doWbyte _ (h.doWbyte _ hR)))

theorem readMac : Respects R readMac := fun _ _ hR => h.readMbuf 22 (by decide) (by decide) (h.doDelay _ hR)

theorem exchangeSoftReset : Respects R exchangeSoftReset := fun _ _ hR =>
  h.readMbuf 2 (by decide) (by decide) (h.sendSoftReset hR)

theorem doReadIdentifier_of_gate {s u : State} (hR : R (Machine.gate s) (Machine.gate u)) :
    R (doReadIdentifier s) (doReadIdentifier u) :=
  h.thenOk h.checkIdentifier (h.thenOk h.readIdent (h.thenOk (h.doWbyte _) hR))

theorem doReadIdentifier : Respects R doReadIdentifier := fun _ _ hR => h.doReadIdentifier_of_gate (h.gate hR)

theorem doWriteChallenge : Respects R doWriteChallenge := fun _ _ hR =>
  h.thenOk h.checkEcho (h.thenOk h.exchangeChallenge (h.thenOk (h.doWbyte _) (h.gate hR)))

theorem doReadAuthPage : Respects R doReadAuthPage := fun _ _ hR =>
  h.thenOk (h.checkCrc16 .mac .crc16Mac) (h.thenOk h.readMac (h.thenOk (h.checkCrc16 .page .crc16Page)
    (h.thenOk h.readPage (h.thenOk (h.doWbyte _) (h.gate hR)))))

theorem doSoftResetTxn_of_gate {s u : State} (hR : R (Machine.gate s) (Machine.gate u)) :
    R (doSoftResetTxn s) (doSoftResetTxn u) :=
  h.thenOk h.settle (h.thenOk (h.checkCrc16 .soft .crc16Soft)
    (h.thenOk h.exchangeSoftReset (h.thenOk (h.doWbyte _) hR)))

theorem doSoftResetTxn : Respects R doSoftResetTxn := fun _ _ hR => h.doSoftResetTxn_of_gate (h.gate hR)

theorem authTransactions : Respects R authTransactions := fun _ _ hR =>
  h.thenOk h.doReadAuthPage (h.doWriteChallenge (h.drawChallenge hR))

/-! #### A retried unit (R241) -/

theorem attempt_related {Q : State → State → Prop} {body : State → State} (hbody : ∀ ⦃s u⦄, R s u → Q (body s) (body u))
    {s u : State} (hR : R s u) : Q (attempt body s) (attempt body u) := by
  rw [attempt, attempt, h.att hR]
  exact hbody (h.setAtt _ hR)

/-- A unit whose first attempts end related. -/
theorem retry_of_first {body : State → State} (hbody : Respects R body) {s u : State}
    (hfirst : R (body (Machine.setAtt 1 s)) (body (Machine.setAtt 1 u))) : R (retry body s) (retry body u) :=
  retryFrom_related (h.attempt_related hbody) h.retries_eq (fun hR _ => hR) 2 hfirst

theorem retry {body : State → State} (hbody : Respects R body) : Respects R (retry body) := fun _ _ hR =>
  h.retry_of_first hbody (hbody (h.setAtt 1 hR))

end KeptByOperations

end Sys2Proof.Proofs
end

/-! ### What the transactions neither read nor write

The registers of the authentication engine, its parameters, the request level of the challenge source and the host's
inputs stand beside every operation of a transaction: it does the same whatever they are, and leaves them alone. -/

section
namespace Sys2Proof.Proofs

open Sys2Proof.Machine Sys2Proof.Safety

/-- The values no operation of a transaction reads or writes, but for `chal_req`, which falls with a draw (R45). -/
structure Bystanders where
  secretTemplate : Vector Byte 64
  secretIdOffset : Fin 57
  secretExtract : Config.SecretExtract
  macLayout : Vector Config.MacSource 64
  sha1FeedForward : Bool
  secret : Vector Byte 8
  mach : Vector Byte 20
  sha : ShaRegs
  macOk : Bool
  chalReq : Bool
  inputs : List Input

/-- Those of a state. -/
def bystanders (s : State) : Bystanders where
  secretTemplate := s.cfg.secretTemplate
  secretIdOffset := s.cfg.secretIdOffset
  secretExtract := s.cfg.secretExtract
  macLayout := s.cfg.macLayout
  sha1FeedForward := s.cfg.sha1FeedForward
  secret := s.session.secret
  mach := s.session.mach
  sha := s.sha
  macOk := s.flags.macOk
  chalReq := s.chalReq
  inputs := s.env.inputs

/-- The state with these in place of its own. -/
def withBystanders (k : Bystanders) (s : State) : State :=
  { s with
    cfg := { s.cfg with
      secretTemplate := k.secretTemplate, secretIdOffset := k.secretIdOffset, secretExtract := k.secretExtract
      macLayout := k.macLayout, sha1FeedForward := k.sha1FeedForward }
    session := { s.session with secret := k.secret, mach := k.mach }
    sha := k.sha, flags := { s.flags with macOk := k.macOk }
    chalReq := k.chalReq, env := { s.env with inputs := k.inputs } }

theorem bystanders_withBystanders (k : Bystanders) (s : State) : bystanders (withBystanders k s) = k := rfl

theorem withBystanders_bystanders (s : State) : withBystanders (bystanders s) s = s := rfl

/-- The operation does the same whatever the bystanders are. -/
def IgnoresBystanders (f : State → State) : Prop := ∀ k s, f (withBystanders k s) = withBystanders k (f s)

/-- What ignores them leaves them alone. -/
theorem IgnoresBystanders.kept {f : State → State} (h : IgnoresBystanders f) (s : State) :
    bystanders (f s) = bystanders s := by
  have hs := congrArg bystanders (h (bystanders s) s)
  rwa [withBystanders_bystanders, bystanders_withBystanders] at hs

theorem ignoresBystanders_doWbyte (v : Byte) : IgnoresBystanders (doWbyte v) := fun k s => by
  rw [doWbyte_eq, doWbyte_eq]; rfl

theorem ignoresBystanders_sendChallenge : IgnoresBystanders (doWblock (.buf .chal) 12) := fun k s => by
  rw [doWblock_eq, doWblock_eq]; rfl

theorem ignoresBystanders_sendSoftReset : IgnoresBystanders (doWblock (.const Config.cmdSoftReset) 7) := fun k s => by
  rw [doWblock_eq, doWblock_eq]; rfl

theorem ignoresBystanders_readIdent {n : Nat} (h : n ≤ 8) (h0 : n ≠ 0) : IgnoresBystanders (doRblock .ident n) :=
  fun k s => by rw [doRblock_ident_eq n _ h h0, doRblock_ident_eq n _ h h0]; rfl

theorem ignoresBystanders_readEcho {n : Nat} (h : n ≤ 12) (h0 : n ≠ 0) : IgnoresBystanders (doRblock .echo n) :=
  fun k s => by rw [doRblock_echo_eq n _ h h0, doRblock_echo_eq n _ h h0]; rfl

theorem ignoresBystanders_readRbuf {n : Nat} (h : n ≤ 31) (h0 : n ≠ 0) : IgnoresBystanders (doRblock .rbuf n) :=
  fun k s => by rw [doRblock_rbuf_eq n _ h h0, doRblock_rbuf_eq n _ h h0]; rfl

theorem ignoresBystanders_readMbuf {n : Nat} (h : n ≤ 22) (h0 : n ≠ 0) : IgnoresBystanders (doRblock .mbuf n) :=
  fun k s => by rw [doRblock_mbuf_eq n _ h h0, doRblock_mbuf_eq n _ h h0]; rfl

theorem ignoresBystanders_doCrc8Check : IgnoresBystanders doCrc8Check := fun k s => by
  rw [doCrc8Check_eq, doCrc8Check_eq]; rfl

theorem ignoresBystanders_doCrc16Check (f : Frame) : IgnoresBystanders (doCrc16Check f) := fun k s => by
  rw [doCrc16Check_eq, doCrc16Check_eq]
  cases f <;> rfl

/-- No page is empty (R100). -/
theorem pageRead_count_ne_zero (n : Config.PageRead) : n.count.toNat ≠ 0 := by cases n <;> decide

/-- u is s with other bystanders, which P allows beside those of s. -/
def DifferIn (P : Bystanders → Bystanders → Prop) (s u : State) : Prop :=
  ∃ k, P (bystanders s) k ∧ u = withBystanders k s

theorem IgnoresBystanders.respects {P : Bystanders → Bystanders → Prop} {f : State → State}
    (h : IgnoresBystanders f) : Respects (DifferIn P) f := by
  rintro s _ ⟨k, hk, rfl⟩
  exact ⟨k, (h.kept s).symm ▸ hk, h k s⟩

/-- Two states that differ in their bystanders alone go on so through every transaction. -/
theorem differIn_keptByOperations {P : Bystanders → Bystanders → Prop}
    (hdraw : ∀ b k, P b k → P { b with chalReq := false } { k with chalReq := false }) :
    KeptByOperations (DifferIn P) where
  res := by rintro s _ ⟨k, -, rfl⟩; rfl
  att := by rintro s _ ⟨k, -, rfl⟩; rfl
  present := by rintro s _ ⟨k, -, rfl⟩; rfl
  crc8Ok := by rintro s _ ⟨k, -, rfl⟩; rfl
  crc16Ok := by rintro s _ ⟨k, -, rfl⟩; rfl
  echoOk := by rintro s _ ⟨k, -, rfl⟩; rfl
  pageRead := by rintro s _ ⟨k, -, rfl⟩; rfl
  presenceRetry := by rintro s _ ⟨k, -, rfl⟩; rfl
  setRes _ := IgnoresBystanders.respects fun _ _ => rfl
  setAtt _ := IgnoresBystanders.respects fun _ _ => rfl
  doReset := IgnoresBystanders.respects fun _ _ => rfl
  doWbyte v := (ignoresBystanders_doWbyte v).respects
  sendChallenge := ignoresBystanders_sendChallenge.respects
  sendSoftReset := ignoresBystanders_sendSoftReset.respects
  readIdent := (ignoresBystanders_readIdent (by decide) (by decide)).respects
  readEcho := (ignoresBystanders_readEcho (by decide) (by decide)).respects
  readRbuf n := (ignoresBystanders_readRbuf (pageRead_count_le n) (pageRead_count_ne_zero n)).respects
  readMbuf _ hle hne := (ignoresBystanders_readMbuf hle hne).respects
  doDelay _ := IgnoresBystanders.respects fun _ _ => rfl
  settle := IgnoresBystanders.respects fun _ _ => rfl
  doCrc8Check := ignoresBystanders_doCrc8Check.respects
  doCrc16Check f := (ignoresBystanders_doCrc16Check f).respects
  doEchoCheck := IgnoresBystanders.respects fun _ _ => rfl
  drawChallenge := by
    rintro s _ ⟨k, hk, rfl⟩
    exact ⟨{ k with chalReq := false }, hdraw _ k hk, rfl⟩

end Sys2Proof.Proofs
end

/-! ### Nothing of an earlier command persists (R320) -/

section
namespace Sys2Proof.Proofs

open Sys2Proof.Machine Sys2Proof.Safety

/-- What holds of the three commands run whole holds of each as an operation of an idle block (R240). -/
theorem command_cases {P : Instr → (State → State) → Prop} (hget : P .getIdentifier runGetIdentifier)
    (hauth : P .authenticate runAuthenticate) (hsoft : P .softReset runSoftReset) (i : Instr)
    (hi : i ∈ [Instr.getIdentifier, .authenticate, .softReset]) :
    ∃ run, (∀ s, s.flags.busy = false → exec i s = .next (run s)) ∧ P i run := by
  simp only [List.mem_cons, List.not_mem_nil, or_false] at hi
  obtain rfl | rfl | rfl := hi
  · exact ⟨_, fun s hs => congrArg Host.Outcome.next (whenIdle_of_idle _ hs), hget⟩
  · exact ⟨_, fun s hs => congrArg Host.Outcome.next (whenIdle_of_idle _ hs), hauth⟩
  · exact ⟨_, fun s hs => congrArg Host.Outcome.next (whenIdle_of_idle _ hs), hsoft⟩

/-- Bystanders that differ in `chal_req` and the inputs alone; where `same`, in the inputs alone. -/
def HostOwn (same : Prop) (inputs : List Input) (b k : Bystanders) : Prop :=
  (same → k.chalReq = b.chalReq) ∧ k = { b with chalReq := k.chalReq, inputs := inputs }

theorem hostOwn_keptByOperations (same : Prop) (inputs : List Input) :
    KeptByOperations (DifferIn (HostOwn same inputs)) :=
  differIn_keptByOperations fun _ _ ⟨_, hk⟩ => ⟨fun _ => rfl, by rw [hk]⟩

theorem differIn_hostOwn_iff {same : Prop} {inputs : List Input} {s u : State} :
    DifferIn (HostOwn same inputs) s u ↔
      (same → u.chalReq = s.chalReq) ∧ u = { s with chalReq := u.chalReq, env := { s.env with inputs := inputs } } := by
  constructor
  · rintro ⟨k, ⟨hreq, hk⟩, rfl⟩
    refine ⟨hreq, ?_⟩
    conv_lhs => rw [hk]
    rfl
  · rintro ⟨hreq, hu⟩
    exact ⟨{ bystanders s with chalReq := u.chalReq, inputs := inputs }, ⟨hreq, rfl⟩, hu⟩

/-- What neither reads nor writes `chal_req` and the inputs keeps two blocks alike. -/
theorem respects_hostOwn {same : Prop} {inputs : List Input} {f : State → State}
    (hreq : ∀ s, (f s).chalReq = s.chalReq)
    (hf : ∀ c s, f { s with chalReq := c, env := { s.env with inputs := inputs } } =
      { f s with chalReq := c, env := { (f s).env with inputs := inputs } }) :
    Respects (DifferIn (HostOwn same inputs)) f := by
  intro s u hR
  rw [differIn_hostOwn_iff] at hR ⊢
  obtain ⟨hsame, hu⟩ := hR
  have hfu : f u = { f s with chalReq := u.chalReq, env := { (f s).env with inputs := inputs } } := by
    rw [← hf, ← hu]
  have hreq' : (f u).chalReq = u.chalReq := hreq u
  rw [hreq', hreq s]
  exact ⟨hsame, hfu⟩

theorem respects_hostOwn_finish {same : Prop} {inputs : List Input} (st : Status) (c : Cause) (out : Output) :
    Respects (DifferIn (HostOwn same inputs)) (finish st c out) :=
  respects_hostOwn (fun _ => rfl) fun _ _ => rfl

theorem respects_hostOwn_conclude {same : Prop} {inputs : List Input} (out : Output) :
    Respects (DifferIn (HostOwn same inputs)) (conclude out) := by
  intro s u hR
  have hres := (hostOwn_keptByOperations same inputs).res hR
  unfold conclude
  rw [hres]
  split
  · exact respects_hostOwn_finish _ _ _ hR
  · exact respects_hostOwn_finish _ _ _ hR
  · exact hR

theorem respects_hostOwn_doDeriveSecret {same : Prop} {inputs : List Input} :
    Respects (DifferIn (HostOwn same inputs)) doDeriveSecret :=
  respects_hostOwn doDeriveSecret_chalReq fun _ _ => rfl

theorem respects_hostOwn_judgeMac {same : Prop} {inputs : List Input} :
    Respects (DifferIn (HostOwn same inputs)) judgeMac := by
  have hmac : Respects (DifferIn (HostOwn same inputs)) fun s => doVerifyMac (doComputeMac s) :=
    respects_hostOwn (fun s => by rw [doVerifyMac_chalReq, doComputeMac_chalReq]) fun _ _ => rfl
  intro s u hR
  have hjudged := hmac hR
  refine (hostOwn_keptByOperations same inputs).require _ hjudged ?_
  have hok := congrArg (fun t : State => t.flags.macOk) (differIn_hostOwn_iff.mp hjudged).2
  exact hok

theorem respects_hostOwn_authAttempt {same : Prop} {inputs : List Input} :
    Respects (DifferIn (HostOwn same inputs)) authAttempt := fun _ _ hR =>
  (hostOwn_keptByOperations same inputs).thenOk respects_hostOwn_judgeMac
    ((hostOwn_keptByOperations same inputs).authTransactions hR)

theorem respects_hostOwn_authenticateFrom {same : Prop} {inputs : List Input} :
    Respects (DifferIn (HostOwn same inputs)) authenticateFrom := by
  intro s u hR
  have h := hostOwn_keptByOperations same inputs
  unfold authenticateFrom
  rw [h.res hR]
  split
  · exact respects_hostOwn_conclude _ (h.retry respects_hostOwn_authAttempt (respects_hostOwn_doDeriveSecret hR))
  · exact respects_hostOwn_conclude _ hR
  · exact hR

/-- Two blocks as the statement asks: the same parameters, and the same answers to come. -/
structure SameAnswers (s u : State) : Prop where
  cfg : u.cfg = s.cfg
  script : u.line.script = s.line.script
  sampleNo : u.line.sampleNo = s.line.sampleNo
  gapNo : u.line.gapNo = s.line.gapNo
  chalScript : u.env.chalScript = s.env.chalScript
  chalNo : u.env.chalNo = s.env.chalNo

/-- The first reset pulse of a command writes the drive and the timer, which the acceptance did not. -/
theorem resetLine_congr {l m : Line} (g : Config.Gap) (hscript : m.script = l.script)
    (hsample : m.sampleNo = l.sampleNo) (hgap : m.gapNo = l.gapNo) :
    resetLine g { m with traceRev := [], gapDue := false } =
      resetLine g { l with traceRev := [], gapDue := false } := by
  obtain ⟨drv, timer, due, script, sampleNo, gapNo, trace⟩ := l
  obtain ⟨drv', timer', due', script', sampleNo', gapNo', trace'⟩ := m
  obtain rfl : script' = script := hscript
  obtain rfl : sampleNo' = sampleNo := hsample
  obtain rfl : gapNo' = gapNo := hgap
  rfl

/-- After the first reset pulse of a command only the host's side tells the two blocks apart. -/
theorem gate_accept_sameAnswers {s u : State} (h : SameAnswers s u) (cmd : BitVec 2) :
    DifferIn (HostOwn (u.chalReq = s.chalReq) u.env.inputs) (gate (setAtt 1 (accept cmd s)))
      (gate (setAtt 1 (accept cmd u))) := by
  have hanswer : answer (accept cmd u).line 0 = answer (accept cmd s).line 0 := answer_congr h.script h.sampleNo 0
  have hline : resetLine u.cfg.tGap (accept cmd u).line = resetLine s.cfg.tGap (accept cmd s).line := by
    rw [h.cfg]
    exact resetLine_congr _ h.script h.sampleNo h.gapNo
  have henv : u.env = { s.env with inputs := u.env.inputs } := by simp only [← h.chalScript, ← h.chalNo]
  rw [gate_eq, gate_eq, differIn_hostOwn_iff]
  refine ⟨id, ?_⟩
  simp only [setAtt_line, setAtt_cfg, accept_cfg, hanswer, hline]
  simp only [setAtt, accept, h.cfg, ← henv, clearInternalFlags]
  rfl

theorem runGetIdentifier_sameAnswers {s u : State} (h : SameAnswers s u) :
    DifferIn (HostOwn (u.chalReq = s.chalReq) u.env.inputs) (runGetIdentifier s) (runGetIdentifier u) :=
  have hkept := hostOwn_keptByOperations (u.chalReq = s.chalReq) u.env.inputs
  respects_hostOwn_conclude _ (hkept.retry_of_first hkept.doReadIdentifier
    (hkept.doReadIdentifier_of_gate (gate_accept_sameAnswers h 1)))

theorem runAuthenticate_sameAnswers {s u : State} (h : SameAnswers s u) :
    DifferIn (HostOwn (u.chalReq = s.chalReq) u.env.inputs) (runAuthenticate s) (runAuthenticate u) :=
  have hkept := hostOwn_keptByOperations (u.chalReq = s.chalReq) u.env.inputs
  respects_hostOwn_authenticateFrom (hkept.retry_of_first hkept.doReadIdentifier
    (hkept.doReadIdentifier_of_gate (gate_accept_sameAnswers h 2)))

theorem runSoftReset_sameAnswers {s u : State} (h : SameAnswers s u) :
    DifferIn (HostOwn (u.chalReq = s.chalReq) u.env.inputs) (runSoftReset s) (runSoftReset u) :=
  have hkept := hostOwn_keptByOperations (u.chalReq = s.chalReq) u.env.inputs
  respects_hostOwn_conclude _ (hkept.retry_of_first hkept.doSoftResetTxn
    (hkept.doSoftResetTxn_of_gate (gate_accept_sameAnswers h 3)))

/-- Settles O46: after the first reset pulse the two blocks differ in the host's side alone, and no operation of a
command reads that. -/
theorem nothingPersistsBetweenCommands : Obligations.NothingPersistsBetweenCommands := by
  intro s u t hs hu hcfg hscript hsample hgap hchal hno i hi hexec
  have hsame : SameAnswers s u := ⟨hcfg, hscript, hsample, hgap, hchal, hno⟩
  obtain ⟨run, hrun, hR⟩ := command_cases (P := fun _ run =>
      DifferIn (HostOwn (u.chalReq = s.chalReq) u.env.inputs) (run s) (run u))
    (runGetIdentifier_sameAnswers hsame) (runAuthenticate_sameAnswers hsame) (runSoftReset_sameAnswers hsame) i hi
  rw [hrun s hs] at hexec
  cases hexec
  obtain ⟨hreq, heq⟩ := differIn_hostOwn_iff.mp hR
  exact ⟨run u, hrun u hu, heq, hreq⟩

end Sys2Proof.Proofs
end

/-! ### The line tells nothing of the secret (R25) -/

section
namespace Sys2Proof.Proofs

open Sys2Proof.Machine Sys2Proof.Safety

/-- The parameters with another secret computation. -/
def withSecretParams (other p : Config.Params) : Config.Params :=
  { p with
    secretTemplate := other.secretTemplate, secretIdOffset := other.secretIdOffset
    secretExtract := other.secretExtract, macLayout := other.macLayout, sha1FeedForward := other.sha1FeedForward }

/-- Bystanders of a block with another secret computation: its parameters, and what comes of them. -/
def OtherSecret (other : Config.Params) (b k : Bystanders) : Prop :=
  ∃ secret mach sha ok, k =
    { b with
      secretTemplate := other.secretTemplate, secretIdOffset := other.secretIdOffset
      secretExtract := other.secretExtract, macLayout := other.macLayout, sha1FeedForward := other.sha1FeedForward
      secret := secret, mach := mach, sha := sha, macOk := ok }

theorem otherSecret_keptByOperations (other : Config.Params) : KeptByOperations (DifferIn (OtherSecret other)) :=
  differIn_keptByOperations fun b _ ⟨secret, mach, sha, ok, hk⟩ => ⟨secret, mach, sha, ok, by rw [hk]⟩

/-- `DERIVE_SECRET` but for the hash registers (R217). -/
theorem doDeriveSecret_eq (s : State) : ∃ sha, doDeriveSecret s =
    { s with session := { s.session with secret := secretOf s.cfg s.session.ident }, sha := sha } := by
  simp only [doDeriveSecret, doSha1]
  exact ⟨_, rfl⟩

/-- The MAC a block in this state computes (R220). -/
def macOf (s : State) : Vector Byte 20 :=
  macBytes (hashOutput s.cfg.sha1FeedForward (workingAfter (macBlock s.cfg.macLayout s.session)))

/-- `COMPUTE_MAC` but for the hash registers (R220). -/
theorem doComputeMac_eq (s : State) : ∃ sha, doComputeMac s =
    { s with session := { s.session with mach := macOf s }, sha := sha } := by
  simp only [doComputeMac, doSha1]
  exact ⟨_, rfl⟩

theorem doComputeMac_changes (s : State) :
    ∃ mach sha, doComputeMac s = { s with session := { s.session with mach := mach }, sha := sha } :=
  ⟨macOf s, doComputeMac_eq s⟩

theorem respects_otherSecret_doDeriveSecret (other : Config.Params) :
    Respects (DifferIn (OtherSecret other)) doDeriveSecret := by
  rintro s _ ⟨_, ⟨secret, mach, sha, ok, rfl⟩, rfl⟩
  obtain ⟨sha', hs⟩ := doDeriveSecret_eq s
  obtain ⟨sha'', hu⟩ := doDeriveSecret_eq (withBystanders _ s)
  rw [hs, hu]
  exact ⟨_, ⟨_, mach, sha'', ok, rfl⟩, rfl⟩

theorem respects_otherSecret_verifyMac (other : Config.Params) :
    Respects (DifferIn (OtherSecret other)) fun s => doVerifyMac (doComputeMac s) := by
  rintro s _ ⟨_, ⟨secret, mach, sha, ok, rfl⟩, rfl⟩
  obtain ⟨mach', sha', hs⟩ := doComputeMac_changes s
  obtain ⟨mach'', sha'', hu⟩ := doComputeMac_changes (withBystanders _ s)
  change DifferIn _ (doVerifyMac (doComputeMac s)) (doVerifyMac (doComputeMac (withBystanders _ s)))
  rw [hs, hu]
  exact ⟨_, ⟨secret, mach'', sha'', _, rfl⟩, rfl⟩

/-- At the end of a command nothing of the computation is left but its parameters. -/
theorem finish_otherSecret {other : Config.Params} {s u : State} (h : DifferIn (OtherSecret other) s u) (st : Status)
    (c : Cause) (out : Output) :
    finish st c out u = { finish st c out s with cfg := withSecretParams other s.cfg } := by
  obtain ⟨k, ⟨secret, mach, sha, ok, rfl⟩, rfl⟩ := h
  rfl

theorem conclude_otherSecret {other : Config.Params} {cmd : BitVec 2} {s u : State}
    (h : DifferIn (OtherSecret other) s u) (hres : HasResult cmd s) (out : Output) :
    conclude out u = { conclude out s with cfg := withSecretParams other s.cfg } := by
  have hu := (otherSecret_keptByOperations other).res h
  obtain hok | ⟨f, hf, -⟩ := hres
  · simp only [conclude, hu, hok, finish_otherSecret h]
  · simp only [conclude, hu, hf, finish_otherSecret h]

theorem accept_otherSecret (other : Config.Params) (cmd : BitVec 2) (s : State) :
    DifferIn (OtherSecret other) (accept cmd s) (accept cmd { s with cfg := withSecretParams other s.cfg }) :=
  ⟨_, ⟨_, _, _, _, rfl⟩, rfl⟩

/-! #### The parameters stay (R47) -/

theorem retryFrom_cfg {body : State → State} (hbody : ∀ u, (body u).cfg = u.cfg) (left : Nat) (s : State) :
    (retryFrom body left s).cfg = s.cfg := by
  induction left generalizing s with
  | zero => rfl
  | succ left ih =>
    have htried : (attempt body s).cfg = s.cfg := hbody _
    rw [retryFrom_succ]
    split
    · exact (ih _).trans htried
    · exact htried

theorem retry_cfg {body : State → State} (hbody : ∀ u, (body u).cfg = u.cfg) (s : State) :
    (retry body s).cfg = s.cfg := retryFrom_cfg hbody _ (setAtt 0 s)

theorem OperationFrame.cfg {s t : State} (h : OperationFrame s t) : t.cfg = s.cfg := h.position.1

theorem doReadIdentifier_cfg (s : State) : (doReadIdentifier s).cfg = s.cfg :=
  ((operationFrame_gate s).trans (operationFrame_doReadIdentifier s)).cfg

theorem doSoftResetTxn_cfg (s : State) : (doSoftResetTxn s).cfg = s.cfg :=
  ((operationFrame_gate s).trans (operationFrame_doSoftResetTxn s)).cfg

/-! #### An attempt is judged (R246, R248) -/

/-- What the comparator decides between: success, or the mismatch that is not retried. -/
def Judged (r : TxnResult) : Prop := r = .ok ∨ r = .failed .macMismatch

/-- Two blocks of which the comparator may have judged otherwise: apart from the result they differ as before. -/
def DifferInVerdict (other : Config.Params) (s u : State) : Prop :=
  DifferIn (OtherSecret other) s { u with res := s.res } ∧ (u.res = s.res ∨ Judged s.res ∧ Judged u.res)

theorem differInVerdict_of_differIn {other : Config.Params} {s u : State} (h : DifferIn (OtherSecret other) s u) :
    DifferInVerdict other s u := by
  have hres := (otherSecret_keptByOperations other).res h
  exact ⟨hres ▸ h, .inl hres⟩

theorem differIn_of_differInVerdict {other : Config.Params} {s u : State} (h : DifferInVerdict other s u)
    (hres : u.res = s.res) : DifferIn (OtherSecret other) s u := by
  obtain ⟨hdiffer, -⟩ := h
  rwa [← hres] at hdiffer

theorem retries_of_judged {s : State} (h : Judged s.res) : retries s = false := by
  obtain hok | hf := h
  · exact retries_of_ok hok
  · exact retries_of_failed hf

theorem differInVerdict_retries {other : Config.Params} {s u : State} (h : DifferInVerdict other s u) :
    retries u = retries s := by
  obtain hres | ⟨hs, hu⟩ := h.2
  · exact (otherSecret_keptByOperations other).retries_eq (differIn_of_differInVerdict h hres)
  · rw [retries_of_judged hs, retries_of_judged hu]

/-- Where another attempt follows, the comparator has not judged. -/
theorem differIn_of_retries {other : Config.Params} {s u : State} (h : DifferInVerdict other s u)
    (hgo : retries s = true) : DifferIn (OtherSecret other) s u := by
  obtain hres | ⟨hs, -⟩ := h.2
  · exact differIn_of_differInVerdict h hres
  · exact absurd (hgo.symm.trans (retries_of_judged hs)) (by decide)

/-- A check leaves the result alone or raises its failure. -/
theorem require_cases (flag : State → Bool) (f : Failure) {s : State} (hok : s.res = .ok) :
    ∃ r, require flag f s = { s with res := r } ∧ (r = .ok ∨ r = .failed f) := by
  cases hflag : flag s with
  | true => exact ⟨s.res, require_true f hflag, .inl hok⟩
  | false => exact ⟨_, require_false f hflag, .inr rfl⟩

theorem require_otherSecret {other : Config.Params} (flag : State → Bool) {s u : State}
    (h : DifferIn (OtherSecret other) s u) (hok : s.res = .ok) :
    DifferInVerdict other (require flag .macMismatch s) (require flag .macMismatch u) := by
  have hkept := otherSecret_keptByOperations other
  obtain ⟨r, hs, hr⟩ := require_cases flag .macMismatch hok
  obtain ⟨q, hu, hq⟩ := require_cases flag .macMismatch ((hkept.res h).trans hok)
  have hsame : DifferIn (OtherSecret other) { s with res := r } { u with res := r } := hkept.setRes r h
  rw [hs, hu]
  exact ⟨hsame, .inr ⟨hr, hq⟩⟩

theorem judgeMac_otherSecret {other : Config.Params} {s u : State} (h : DifferIn (OtherSecret other) s u)
    (hok : s.res = .ok) : DifferInVerdict other (judgeMac s) (judgeMac u) :=
  require_otherSecret _ (respects_otherSecret_verifyMac other h) (by rw [doVerifyMac_res, doComputeMac_res, hok])

theorem authAttempt_otherSecret {other : Config.Params} {s u : State} (h : DifferIn (OtherSecret other) s u) :
    DifferInVerdict other (authAttempt s) (authAttempt u) := by
  have hkept := otherSecret_keptByOperations other
  have htxn := hkept.authTransactions h
  rw [authAttempt_eq, authAttempt_eq]
  generalize authTransactions s = a at htxn
  generalize authTransactions u = b at htxn
  have hres := hkept.res htxn
  obtain ⟨hok, ha⟩ | ⟨hne, ha⟩ := thenOk_cases judgeMac a
  · rw [ha, thenOk_ok judgeMac (hres.trans hok)]
    exact judgeMac_otherSecret htxn hok
  · obtain ⟨hok, -⟩ | ⟨-, hb⟩ := thenOk_cases judgeMac b
    · exact absurd (hres.symm.trans hok) hne
    · rw [ha, hb]
      exact differInVerdict_of_differIn htxn

theorem retry_authAttempt_otherSecret {other : Config.Params} {s u : State} (h : DifferIn (OtherSecret other) s u) :
    DifferInVerdict other (retry authAttempt s) (retry authAttempt u) := by
  have hkept := otherSecret_keptByOperations other
  have hbody : ∀ ⦃s u⦄, DifferIn (OtherSecret other) s u → DifferInVerdict other (authAttempt s) (authAttempt u) :=
    fun _ _ => authAttempt_otherSecret
  exact retryFrom_related (hkept.attempt_related hbody) differInVerdict_retries differIn_of_retries 2
    (hkept.attempt_related hbody (hkept.setAtt 0 h))

/-! #### The end of the command -/

/-- The end of a command in a block with another secret computation, as the host sees it: the same, or one success and
one authentication failure. -/
def HostsDiffer (t u : State) : Prop :=
  t.host.status = .ok ∧ u.host = ⟨.authenticationFailure, .none, 0, 0⟩ ∨
    u.host.status = .ok ∧ t.host = ⟨.authenticationFailure, .none, 0, 0⟩

theorem finish_host_of_failure (st : Status) (c : Cause) {s : State} (hhost : s.host = ⟨.none, .none, 0, 0⟩) :
    (finish st c .nothing s).host = ⟨st, c, 0, 0⟩ := by
  simp [writeOutput, hhost]

theorem conclude_of_ok (out : Output) {s : State} (h : s.res = .ok) : conclude out s = finish .ok .none out s := by
  simp only [conclude, h]

theorem conclude_of_failed (out : Output) {s : State} {f : Failure} (h : s.res = .failed f) :
    conclude out s = finish (failureStatus f) (failureCause f) .nothing s := by
  simp only [conclude, h]

theorem finish_differInVerdict {other : Config.Params} {s u : State} (h : DifferInVerdict other s u) (st : Status)
    (c : Cause) (out : Output) :
    finish st c out u = { finish st c out s with cfg := withSecretParams other s.cfg } :=
  finish_otherSecret h.1 st c out

/-- The end of a command whose attempts the comparator may have judged otherwise. -/
theorem conclude_differInVerdict {other : Config.Params} {s u : State} (h : DifferInVerdict other s u)
    (hres : HasResult 2 s) (hhost : s.host = ⟨.none, .none, 0, 0⟩) (out : Output) :
    conclude out u =
        { conclude out s with cfg := withSecretParams other s.cfg, host := (conclude out u).host } ∧
      ((conclude out u).host = (conclude out s).host ∨ HostsDiffer (conclude out s) (conclude out u)) := by
  by_cases heq : u.res = s.res
  · have hsame := conclude_otherSecret (differIn_of_differInVerdict h heq) hres out
    have hsameHost : (conclude out u).host = (conclude out s).host := by rw [hsame]
    exact ⟨hsameHost ▸ hsame, .inl hsameHost⟩
  · obtain heq' | ⟨hs | hs, hu | hu⟩ := h.2
    · exact absurd heq' heq
    · exact absurd (hu.trans hs.symm) heq
    · rw [conclude_of_ok out hs, conclude_of_failed out hu, finish_differInVerdict h]
      exact ⟨rfl, .inr (.inl ⟨rfl, finish_host_of_failure _ _ hhost⟩)⟩
    · rw [conclude_of_failed out hs, conclude_of_ok out hu, finish_differInVerdict h]
      exact ⟨rfl, .inr (.inr ⟨rfl, finish_host_of_failure _ _ hhost⟩)⟩
    · exact absurd (hu.trans hs.symm) heq

/-! #### The three commands -/

/-- The command ends alike but for the parameters and, where the comparator may judge otherwise, the outcome. -/
def EndsAlike (mayDiffer : Prop) (other : Config.Params) (s t u : State) : Prop :=
  u = { t with cfg := withSecretParams other s.cfg, host := u.host } ∧
    (u.host = t.host ∨ mayDiffer ∧ HostsDiffer t u)

theorem endsAlike_of_eq {mayDiffer : Prop} {other : Config.Params} {s t u : State}
    (h : u = { t with cfg := withSecretParams other s.cfg }) : EndsAlike mayDiffer other s t u := by
  have hhost : u.host = t.host := by rw [h]
  exact ⟨hhost ▸ h, .inl hhost⟩

theorem runGetIdentifier_otherSecret (other : Config.Params) (s : State) :
    runGetIdentifier { s with cfg := withSecretParams other s.cfg } =
      { runGetIdentifier s with cfg := withSecretParams other s.cfg } := by
  have hkept := otherSecret_keptByOperations other
  have h := hkept.retry hkept.doReadIdentifier (accept_otherSecret other 1 s)
  have hres := retry_ends_as_body (hasResult_doReadIdentifier (cmd := 1) (by decide)) (accept 1 s)
  rw [runGetIdentifier, conclude_otherSecret h hres, retry_cfg doReadIdentifier_cfg]
  rfl

theorem runSoftReset_otherSecret (other : Config.Params) (s : State) :
    runSoftReset { s with cfg := withSecretParams other s.cfg } =
      { runSoftReset s with cfg := withSecretParams other s.cfg } := by
  have hkept := otherSecret_keptByOperations other
  have h := hkept.retry hkept.doSoftResetTxn (accept_otherSecret other 3 s)
  rw [runSoftReset, conclude_otherSecret h (retry_ends_as_body hasResult_doSoftResetTxn _),
    retry_cfg doSoftResetTxn_cfg]
  rfl

theorem runAuthenticate_otherSecret (other : Config.Params) (s : State) :
    EndsAlike True other s (runAuthenticate s) (runAuthenticate { s with cfg := withSecretParams other s.cfg }) := by
  have hkept := otherSecret_keptByOperations other
  have h := hkept.retry hkept.doReadIdentifier (accept_otherSecret other 2 s)
  have hres := retry_ends_as_body (hasResult_doReadIdentifier (cmd := 2) (by decide)) (accept 2 s)
  have hhost := (portFrame_retry portFrame_doReadIdentifier (accept 2 s)).host
  have hcfg := retry_cfg doReadIdentifier_cfg (accept 2 s)
  rw [runAuthenticate, runAuthenticate]
  generalize retry doReadIdentifier (accept 2 s) = found at h hres hhost hcfg
  generalize retry doReadIdentifier (accept 2 _) = found' at h
  have hfound := hkept.res h
  obtain hok | ⟨f, hf, hraises⟩ := hres
  · simp only [authenticateFrom, hfound, hok]
    have hloop := retry_authAttempt_otherSecret (respects_otherSecret_doDeriveSecret other h)
    have hframe := portFrame_retry (fun u => (operationFrame_authAttempt u).toPortFrame) (doDeriveSecret found)
    have hcfg' := retry_cfg (fun u => (operationFrame_authAttempt u).cfg) (doDeriveSecret found)
    obtain ⟨heq, hhosts⟩ := conclude_differInVerdict hloop (retry_ends_as_body hasResult_authAttempt _)
      (hframe.host.trans ((doDeriveSecret_host found).trans hhost)) .trusted
    rw [hcfg', doDeriveSecret_cfg, hcfg] at heq
    exact ⟨heq, hhosts.imp_right fun h => ⟨trivial, h⟩⟩
  · simp only [authenticateFrom, hfound, hf]
    have heq := conclude_otherSecret h (.inr ⟨f, hf, hraises⟩) .nothing
    rw [hcfg] at heq
    exact endsAlike_of_eq heq

/-- Settles O47: up to the comparator the two blocks differ in the secret computation alone, which no operation on the
line reads; the verdict decides between success and the authentication failure, and `finish` clears the rest. -/
theorem theLineTellsNothingOfTheSecret : Obligations.TheLineTellsNothingOfTheSecret := by
  intro s t other hidle hother i hi hexec
  obtain ⟨run, hrun, hend⟩ := command_cases
    (P := fun i run =>
      EndsAlike (i = .authenticate) other s (run s) (run { s with cfg := withSecretParams other s.cfg }))
    (endsAlike_of_eq (runGetIdentifier_otherSecret other s))
    (by simpa [EndsAlike] using runAuthenticate_otherSecret other s)
    (endsAlike_of_eq (runSoftReset_otherSecret other s)) i hi
  have hparams : withSecretParams other s.cfg = other := hother.symm
  rw [hparams] at hend
  rw [hrun s hidle] at hexec
  cases hexec
  obtain ⟨heq, hhosts⟩ := hend
  exact ⟨_, hrun _ hidle, hparams ▸ heq, hhosts⟩

end Sys2Proof.Proofs
end

/-! ### The checksums by table and by bits (R166 to R174) -/

section
namespace Sys2Proof.Proofs

open Sys2Proof.Machine Sys2Proof.Safety

/-- The eight shift steps of CRC8 a byte takes (R166). -/
def crc8Shift8 (c : Byte) : Byte := crc8Shift^[8] c

/-- The eight shift steps of CRC16 a byte takes (R170). -/
def crc16Shift8 (c : Half) : Half := crc16Shift^[8] c

theorem crc8Bits_cons (c b : Byte) (bytes : List Byte) :
    crc8Bits c (b :: bytes) = crc8Bits (crc8Shift8 (c ^^^ b)) bytes := rfl

theorem crc16Bits_cons (c : Half) (b : Byte) (bytes : List Byte) :
    crc16Bits c (b :: bytes) = crc16Bits (crc16Shift8 (c ^^^ b.zeroExtend 16)) bytes := rfl

theorem crc16Bits_append (c : Half) (xs ys : List Byte) : crc16Bits c (xs ++ ys) = crc16Bits (crc16Bits c xs) ys :=
  List.foldl_append

/-! #### CRC8 -/

/-- Each of the 256 entries of `T8` (R167). -/
theorem t8_eq_shift8 (i : Byte) : t8 i = crc8Shift8 i := by
  revert i
  decide

theorem foldl_crc8Next (bytes : List Byte) (c : Byte) : bytes.foldl crc8Next c = crc8Bits c bytes := by
  induction bytes generalizing c with
  | nil => rfl
  | cons b bytes ih => rw [List.foldl_cons, ih, crc8Bits_cons, crc8Next, t8_eq_shift8]

theorem crc8Of_eq (bytes : List Byte) : crc8Of bytes = crc8Bits 0 bytes := foldl_crc8Next bytes 0

/-! #### CRC16 -/

theorem crc16Shift8_xor (x y : Half) : crc16Shift8 (x ^^^ y) = crc16Shift8 x ^^^ crc16Shift8 y := by
  simp only [crc16Shift8, Function.iterate_succ_apply, Function.iterate_zero_apply, crc16Shift_xor]

/-- Each of the 256 entries of `T16` (R171). -/
theorem t16_eq_shift8 (i : Byte) : t16 i = crc16Shift8 (i.zeroExtend 16) := by
  revert i
  decide

/-- Eight steps move a high byte down: no bit of it comes to bit 0 before. -/
theorem crc16Shift8_high (b : Byte) : crc16Shift8 (b.zeroExtend 16 <<< 8) = b.zeroExtend 16 := by
  revert b
  decide

/-- A half-word of these two bytes, the low one first. -/
def halfOfBytes (lo hi : Byte) : Half := lo.zeroExtend 16 ^^^ hi.zeroExtend 16 <<< 8

theorem halfOfBytes_lo (lo hi : Byte) : (halfOfBytes lo hi).extractLsb' 0 8 = lo := by
  refine BitVec.eq_of_getLsbD_eq fun i hlt => ?_
  simp [halfOfBytes, hlt]
  omega

theorem halfOfBytes_hi (lo hi : Byte) : (halfOfBytes lo hi).extractLsb' 8 8 = hi := by
  refine BitVec.eq_of_getLsbD_eq fun i hlt => ?_
  simp [halfOfBytes, hlt, show 8 + i < 16 by omega]

theorem halfOfBytes_bytes (x : Half) : halfOfBytes (x.extractLsb' 0 8) (x.extractLsb' 8 8) = x := by
  refine BitVec.eq_of_getLsbD_eq fun i hi => ?_
  by_cases h : i < 8
  · simp [halfOfBytes, h, hi]
  · simp [halfOfBytes, h, hi, show i - 8 < 8 by omega, show 8 + (i - 8) = i by omega]

theorem crc16Shift8_halfOfBytes (lo hi : Byte) : crc16Shift8 (halfOfBytes lo hi) = hi.zeroExtend 16 ^^^ t16 lo := by
  rw [halfOfBytes, crc16Shift8_xor, crc16Shift8_high, ← t16_eq_shift8, BitVec.xor_comm]

theorem crc16Next_eq (c : Half) (b : Byte) : crc16Next c b = crc16Shift8 (c ^^^ b.zeroExtend 16) := by
  have hhigh : ((c ^^^ b.zeroExtend 16).extractLsb' 8 8).zeroExtend 16 = c >>> 8 := by
    refine BitVec.eq_of_getLsbD_eq fun i hi => ?_
    simp only [BitVec.getLsbD_setWidth, BitVec.getLsbD_extractLsb', BitVec.getLsbD_xor, BitVec.getLsbD_ushiftRight]
    by_cases h : i < 8
    · simp [h, hi]
    · simp [h, BitVec.getLsbD_of_ge c (8 + i) (by omega)]
  rw [← halfOfBytes_bytes (c ^^^ b.zeroExtend 16), crc16Shift8_halfOfBytes, hhigh]
  rfl

theorem foldl_crc16Next (bytes : List Byte) (c : Half) : bytes.foldl crc16Next c = crc16Bits c bytes := by
  induction bytes generalizing c with
  | nil => rfl
  | cons b bytes ih => rw [List.foldl_cons, ih, crc16Bits_cons, crc16Next_eq]

theorem crc16Of_eq (bytes : List Byte) : crc16Of bytes = crc16Bits 0 bytes := foldl_crc16Next bytes 0

/-! #### The two check bytes of a frame (R174) -/

theorem crc16Shift_eq_zero {x : Half} (h : crc16Shift x = 0) : x = 0 := by
  unfold crc16Shift at h
  split at h
  next => 
    have hbit := congrArg (fun y : Half => y.getLsbD 15) h
    simp at hbit
  next hbit =>
    refine BitVec.eq_of_getLsbD_eq fun i hi => ?_
    cases i with
    | zero => simpa using hbit
    | succ i => 
      have hi' := congrArg (fun y : Half => y.getLsbD i) h
      simpa [Nat.add_comm] using hi'

theorem crc16Shift_injective : Function.Injective crc16Shift := fun x y h => by
  have hzero : crc16Shift (x ^^^ y) = 0 := by rw [crc16Shift_xor, h]; exact BitVec.xor_self
  exact BitVec.xor_eq_zero_iff.mp (crc16Shift_eq_zero hzero)

theorem crc16Shift8_injective : Function.Injective crc16Shift8 := crc16Shift_injective.iterate 8

/-- Two bytes more leave the residual exactly when they are the complement of the register, low byte first. -/
theorem crc16Bits_residual_iff (c : Half) (lo hi : Byte) :
    crc16Bits c [lo, hi] = Config.crc16Residual ↔ halfOfBytes lo hi = ~~~c := by
  have htwo : crc16Bits c [lo, hi] = crc16Shift8 (crc16Shift8 (c ^^^ halfOfBytes lo hi)) := by
    rw [crc16Bits_cons, crc16Bits_cons, halfOfBytes, ← BitVec.xor_assoc, crc16Shift8_xor _ (hi.zeroExtend 16 <<< 8),
      crc16Shift8_high]
    rfl
  have hones : Config.crc16Residual = crc16Shift8 (crc16Shift8 (BitVec.allOnes 16)) := by
    simp [crc16Shift8, crc16Shift, Config.crc16Residual]
  rw [htwo, hones, crc16Shift8_injective.eq_iff, crc16Shift8_injective.eq_iff, BitVec.not_def]
  constructor
  · intro h
    rw [← h, BitVec.xor_comm c, BitVec.xor_assoc, BitVec.xor_self, BitVec.xor_zero]
  · intro h
    rw [h, BitVec.xor_comm, BitVec.xor_assoc, BitVec.xor_self, BitVec.xor_zero]

theorem crc16Bits_softReset : crc16Bits 0 Config.cmdSoftReset = ~~~halfOfBytes 0xFB 0x6E := by
  simp [crc16Bits, Config.cmdSoftReset, crc16Shift, List.range_succ, halfOfBytes]

/-- The answer to a soft reset is valid exactly when it is FB 6E (R192). -/
theorem crc16Bits_soft_iff (lo hi : Byte) :
    crc16Bits 0 (Config.cmdSoftReset ++ [lo, hi]) = Config.crc16Residual ↔ lo = 0xFB ∧ hi = 0x6E := by
  have hsent : crc16Bits 0 (Config.cmdSoftReset ++ [lo, hi]) = crc16Bits (~~~halfOfBytes 0xFB 0x6E) [lo, hi] := by
    rw [crc16Bits_append, crc16Bits_softReset]
  rw [hsent, crc16Bits_residual_iff, BitVec.not_not]
  constructor
  · intro h
    have hlo := halfOfBytes_lo lo hi
    have hhi := halfOfBytes_hi lo hi
    rw [h] at hlo hhi
    exact ⟨hlo.symm.trans (halfOfBytes_lo _ _), hhi.symm.trans (halfOfBytes_hi _ _)⟩
  · rintro ⟨rfl, rfl⟩
    rfl

end Sys2Proof.Proofs
end

/-! ### A command run attempt by attempt (R241 to R250)

A retried unit whose first attempts fail ends with the attempt after them, and `finish` leaves of the attempts what R48
does not clear. -/

section
namespace Sys2Proof.Proofs

open Sys2Proof.Machine Sys2Proof.Safety

/-! #### The attempts -/

/-- As long as attempts fail and may be retried, the loop goes on from what they leave. -/
theorem retryFrom_after_failures {body : State → State} {P : Nat → State → Prop} (n left : Nat) {s : State}
    (hstart : P 0 s)
    (hfail : ∀ m u, m < n → P m u → P (m + 1) (attempt body u) ∧ retries (attempt body u) = true) :
    ∃ u, P n u ∧ retryFrom body (left + n) s = retryFrom body left u := by
  induction n generalizing left with
  | zero => exact ⟨s, hstart, rfl⟩
  | succ n ih =>
    obtain ⟨u, hu, heq⟩ := ih (left + 1) fun m u hm => hfail m u (Nat.lt_succ_of_lt hm)
    obtain ⟨hnext, hgo⟩ := hfail n u (Nat.lt_succ_self n) hu
    exact ⟨attempt body u, hnext, by rw [Nat.add_comm n 1, ← Nat.add_assoc, heq, retryFrom_of_retries left hgo]⟩

/-- After n failed attempts the unit ends with the next one, which is the third or is not to be retried. -/
theorem retry_eq_attempt {body : State → State} {P : Nat → State → Prop} {n : Nat} (hn : n < 3) {s : State}
    (hstart : P 0 (setAtt 0 s))
    (hfail : ∀ m u, m < n → P m u → P (m + 1) (attempt body u) ∧ retries (attempt body u) = true)
    (hend : ∀ u, P n u → n = 2 ∨ retries (attempt body u) = false) :
    ∃ u, P n u ∧ retry body s = attempt body u := by
  obtain ⟨u, hu, heq⟩ := retryFrom_after_failures n (2 - n + 1) hstart hfail
  rw [show 2 - n + 1 + n = Config.nAttempts by simp only [Config.nAttempts]; omega] at heq
  refine ⟨u, hu, heq.trans ?_⟩
  obtain rfl | hstop := hend u hu
  · exact retryFrom_one body u
  · exact retryFrom_of_not_retries _ hstop

/-! #### The state inside a command, and its end -/

/-- The line side right after an acceptance. -/
def acceptedLine (s : State) : Line := { s.line with traceRev := [], gapDue := false }

/-- What a command accepted in s leaves alone until it ends, when it draws no challenge. -/
structure InCommand (s u : State) : Prop where
  cfg : u.cfg = s.cfg
  env : u.env = s.env
  chalReq : u.chalReq = s.chalReq
  host : u.host = ⟨.none, .none, 0, 0⟩

/-- The state a command ends in, with what its attempts leave and `finish` does not clear. -/
def ended (s u : State) (host : HostRegs) : State :=
  { s with
    line := u.line, ret := u.ret, shreg := u.shreg, crc8r := u.crc8r, crc16r := u.crc16r
    seq := ⟨0, .idle, 0, u.seq.att, u.seq.byteCnt, u.seq.bitCnt⟩
    flags := ⟨false, false, false, false, false, false, true⟩
    host := host, session := Session.zero, sha := ShaRegs.zero, res := .none }

theorem finish_inCommand {s u : State} (h : InCommand s u) (st : Status) (c : Cause) (out : Output) :
    finish st c out u =
      ended s u { writeOutput out u.session ⟨.none, .none, 0, 0⟩ with status := st, cause := c } := by
  simp only [finish, ended, h.cfg, h.env, h.chalReq, h.host, clearInternalFlags]

/-- A command that ends with a failure (R266). -/
theorem conclude_failed {s u : State} (h : InCommand s u) {f : Failure} (hres : u.res = .failed f) (out : Output) :
    conclude out u = ended s u ⟨failureStatus f, failureCause f, 0, 0⟩ := by
  rw [conclude_of_failed out hres, finish_inCommand h]
  rfl

theorem conclude_ok {s u : State} (h : InCommand s u) (hres : u.res = .ok) (out : Output) :
    conclude out u =
      ended s u { writeOutput out u.session ⟨.none, .none, 0, 0⟩ with status := .ok, cause := .none } := by
  rw [conclude_of_ok out hres, finish_inCommand h]

/-- From u to t an operation or a transaction puts these operations on the line, with this many samples, and leaves
alone what the end of a command shows. -/
structure Transacted (u t : State) (ops : List (List Event)) (samples : Nat) : Prop where
  cfg : t.cfg = u.cfg
  env : t.env = u.env
  chalReq : t.chalReq = u.chalReq
  host : t.host = u.host
  att : t.seq.att = u.seq.att
  line : LineAfter u.cfg.tGap u.line t.line ops samples

/-- t is where n attempts of a command accepted in s have led, with these operations and samples. -/
structure Attempted (s : State) (n : Nat) (ops : List (List Event)) (samples : Nat) (t : State) : Prop where
  inCommand : InCommand s t
  att : t.seq.att = BitVec.ofNat 2 n
  line : LineAfter s.cfg.tGap (acceptedLine s) t.line ops samples

theorem attempted_start (s : State) (cmd : BitVec 2) : Attempted s 0 [] 0 (setAtt 0 (accept cmd s)) where
  inCommand := ⟨rfl, rfl, rfl, rfl⟩
  att := rfl
  line := lineAfter_none _ _

theorem Attempted.answer {s t : State} {n samples : Nat} {ops : List (List Event)} (h : Attempted s n ops samples t)
    (k : Nat) : answer t.line k = answer s.line (samples + k) := lineAfter_answer h.line k

theorem Attempted.answeredBytes {s t : State} {n samples : Nat} {ops : List (List Event)}
    (h : Attempted s n ops samples t) (k count : Nat) :
    answeredBytes t.line k count = answeredBytes s.line (samples + k) count := lineAfter_answeredBytes h.line k count

theorem Attempted.readOps {s t : State} {n samples : Nat} {ops : List (List Event)} (h : Attempted s n ops samples t)
    (k count : Nat) : readOps t.line k count = readOps s.line (samples + k) count := lineAfter_readOps h.line k count

/-- The attempt goes on. -/
theorem Attempted.append {s u t : State} {n i j : Nat} {ops more : List (List Event)} (h : Attempted s n ops i u)
    (htxn : Transacted u t more j) : Attempted s n (ops ++ more) (i + j) t where
  inCommand :=
    ⟨htxn.cfg.trans h.inCommand.cfg, htxn.env.trans h.inCommand.env, htxn.chalReq.trans h.inCommand.chalReq,
      htxn.host.trans h.inCommand.host⟩
  att := htxn.att.trans h.att
  line := lineAfter_append h.line (h.inCommand.cfg ▸ htxn.line)

/-- The next attempt begins. -/
theorem Attempted.begin {s u : State} {n i : Nat} {ops : List (List Event)} (h : Attempted s n ops i u) :
    Attempted s (n + 1) ops i (setAtt (u.seq.att + 1) u) where
  inCommand := ⟨h.inCommand.cfg, h.inCommand.env, h.inCommand.chalReq, h.inCommand.host⟩
  att := by
    change u.seq.att + 1 = _
    rw [h.att]
    exact (BitVec.ofNat_add n 1).symm
  line := h.line

/-- One more attempt. -/
theorem Attempted.next {s u t : State} {n i j : Nat} {ops more : List (List Event)} (h : Attempted s n ops i u)
    (htxn : Transacted (setAtt (u.seq.att + 1) u) t more j) : Attempted s (n + 1) (ops ++ more) (i + j) t :=
  h.begin.append htxn

/-! #### An absent peripheral (R186, R247) -/

theorem transacted_gate (u : State) : Transacted u (gate u) [resetEvents (answer u.line 0)] 1 := by
  rw [gate_eq]
  exact ⟨rfl, rfl, rfl, rfl, rfl, resetLine_after _ _⟩

theorem gate_absent_res {u : State} (h : answer u.line 0 = true) : (gate u).res = .failed .notPresent := by
  rw [gate_res, h, if_pos rfl]

theorem retries_gate_absent {u : State} (h : answer u.line 0 = true) : retries (gate u) = u.cfg.presenceRetry := by
  rw [retries_of_failed (gate_absent_res h), (transacted_gate u).cfg]
  rfl

theorem doReadIdentifier_absent {u : State} (h : answer u.line 0 = true) : doReadIdentifier u = gate u := by
  have hres := gate_absent_res h
  rw [doReadIdentifier, doSelectRead, thenOk_failed _ hres, thenOk_failed _ hres, thenOk_failed _ hres]

theorem doSoftResetTxn_absent {u : State} (h : answer u.line 0 = true) : doSoftResetTxn u = gate u := by
  have hres := gate_absent_res h
  rw [doSoftResetTxn, doSelectSkip, thenOk_failed _ hres, thenOk_failed _ hres, thenOk_failed _ hres,
    thenOk_failed _ hres]

/-- t is where one more attempt has led that ended at its gate: after u, only the reset pulse. -/
structure EndedAtGate (s : State) (n : Nat) (ops : List (List Event)) (samples : Nat) (u t : State) : Prop where
  attempted : Attempted s (n + 1) (ops ++ [resetEvents true]) (samples + 1) t
  res : t.res = .failed .notPresent
  retries : retries t = s.cfg.presenceRetry
  ret : t.ret = 1
  shreg : t.shreg = u.shreg
  crc8r : t.crc8r = u.crc8r
  crc16r : t.crc16r = u.crc16r
  byteCnt : t.seq.byteCnt = u.seq.byteCnt
  bitCnt : t.seq.bitCnt = u.seq.bitCnt

/-- An attempt at an absent peripheral. -/
theorem Attempted.absent {s u : State} {n samples : Nat} {ops : List (List Event)} {body : State → State}
    (h : Attempted s n ops samples u) (hbody : ∀ u, Safety.answer u.line 0 = true → body u = gate u)
    (habsent : Safety.answer s.line samples = true) : EndedAtGate s n ops samples u (attempt body u) := by
  have hanswer : Safety.answer (setAtt (u.seq.att + 1) u).line 0 = true := (h.answer 0).trans habsent
  have hnext := h.next (transacted_gate (setAtt (u.seq.att + 1) u))
  have hretries := (retries_gate_absent hanswer).trans (congrArg Config.Params.presenceRetry h.inCommand.cfg)
  have hres := gate_absent_res hanswer
  rw [hanswer] at hnext
  rw [attempt, hbody _ hanswer]
  rw [gate_eq, hanswer] at hnext hretries hres ⊢
  exact ⟨hnext, hres, hretries, rfl, rfl, rfl, rfl, rfl, rfl⟩

/-- The registers an acceptance clears and a reset pulse does not write. -/
def Untouched (u : State) : Prop :=
  u.shreg = 0 ∧ u.crc8r = 0 ∧ u.crc16r = 0 ∧ u.seq.byteCnt = 0 ∧ u.seq.bitCnt = 0

theorem EndedAtGate.untouched {s u t : State} {n samples : Nat} {ops : List (List Event)}
    (h : EndedAtGate s n ops samples u t) (hu : Untouched u) : Untouched t := by
  obtain ⟨hshreg, hcrc8, hcrc16, hbyte, hbit⟩ := hu
  exact ⟨h.shreg.trans hshreg, h.crc8r.trans hcrc8, h.crc16r.trans hcrc16, h.byteCnt.trans hbyte, h.bitCnt.trans hbit⟩

/-- After m absent answers, all of them retried. -/
def AbsentFor (s : State) (m : Nat) (u : State) : Prop :=
  Attempted s m (List.replicate m (resetEvents true)) m u ∧ Untouched u

theorem EndedAtGate.absentFor {s u t : State} {m : Nat}
    (h : EndedAtGate s m (List.replicate m (resetEvents true)) m u t) (hu : Untouched u) : AbsentFor s (m + 1) t :=
  ⟨List.replicate_succ' ▸ h.attempted, h.untouched hu⟩

/-- A unit whose peripheral is absent ends at the first reset pulse, or where absence is retried at the third. -/
theorem retry_absent {s : State} {body : State → State} (hbody : ∀ u, answer u.line 0 = true → body u = gate u)
    {n : Nat} (habsent : ∀ m, m ≤ n → answer s.line m = true)
    (hn : n = 0 ∧ s.cfg.presenceRetry = false ∨ n = 2 ∧ s.cfg.presenceRetry = true) (cmd : BitVec 2) :
    AbsentFor s (n + 1) (retry body (accept cmd s)) ∧ (retry body (accept cmd s)).ret = 1 ∧
      (retry body (accept cmd s)).res = .failed .notPresent := by
  have hstep := fun m u (hm : m ≤ n) (h : AbsentFor s m u) => h.1.absent hbody (habsent m hm)
  have hstart : AbsentFor s 0 (setAtt 0 (accept cmd s)) := ⟨attempted_start s cmd, rfl, rfl, rfl, rfl, rfl⟩
  have hend : ∃ u, AbsentFor s n u ∧ retry body (accept cmd s) = attempt body u := by
    refine retry_eq_attempt (by omega) hstart (fun m u hm h => ?_) fun u h => ?_
    · have hgate := hstep m u hm.le h
      obtain ⟨rfl, -⟩ | ⟨-, hretry⟩ := hn
      · exact absurd hm (Nat.not_lt_zero m)
      · exact ⟨hgate.absentFor h.2, hgate.retries.trans hretry⟩
    · obtain ⟨-, hretry⟩ | ⟨htwo, -⟩ := hn
      · exact .inr ((hstep n u le_rfl h).retries.trans hretry)
      · exact .inl htwo
  obtain ⟨u, hu, heq⟩ := hend
  have hgate := hstep n u le_rfl hu
  rw [heq]
  exact ⟨hgate.absentFor hu.2, hgate.ret, hgate.res⟩

/-- Every command whose peripheral is absent ends as its identifier or soft reset unit does (R242 to R244). -/
theorem command_absent {s : State} {n : Nat} (habsent : ∀ m, m ≤ n → answer s.line m = true)
    (hn : n = 0 ∧ s.cfg.presenceRetry = false ∨ n = 2 ∧ s.cfg.presenceRetry = true) :
    ∀ i, i ∈ [Instr.getIdentifier, .authenticate, .softReset] → ∃ run : State → State,
      (∀ s, s.flags.busy = false → exec i s = .next (run s)) ∧
      ∃ u, AbsentFor s (n + 1) u ∧ u.ret = 1 ∧ run s = ended s u ⟨.deviceNotPresent, .none, 0, 0⟩ := by
  have hident := retry_absent (fun _ => doReadIdentifier_absent) habsent hn
  have hsoft := retry_absent (fun _ => doSoftResetTxn_absent) habsent hn 3
  refine command_cases (P := fun _ run =>
    ∃ u, AbsentFor s (n + 1) u ∧ u.ret = 1 ∧ run s = ended s u ⟨.deviceNotPresent, .none, 0, 0⟩) ?_ ?_ ?_
  · obtain ⟨hu, hret, hres⟩ := hident 1
    exact ⟨_, hu, hret, conclude_failed hu.1.inCommand hres _⟩
  · obtain ⟨hu, hret, hres⟩ := hident 2
    refine ⟨_, hu, hret, ?_⟩
    simp only [runAuthenticate, authenticateFrom, hres]
    exact conclude_failed hu.1.inCommand hres _
  · obtain ⟨hu, hret, hres⟩ := hsoft
    exact ⟨_, hu, hret, conclude_failed hu.1.inCommand hres _⟩

/-- Settles O42: the gate of the first unit fails one or three times, and nothing else of the command runs. -/
theorem absenceEndsEveryCommand : Obligations.AbsenceEndsEveryCommand := by
  intro s hidle hfirst i hi ends
  have hends : ∀ n, (∀ m, m ≤ n → answer s.line m = true) →
      (n = 0 ∧ s.cfg.presenceRetry = false ∨ n = 2 ∧ s.cfg.presenceRetry = true) → ends (n + 1) := by
    intro n habsent hn
    obtain ⟨run, hrun, u, ⟨hatt, hshreg, hcrc8, hcrc16, hbyte, hbit⟩, hret, heq⟩ := command_absent habsent hn i hi
    refine ⟨run s, hrun s hidle, ?_, ?_⟩
    · rw [heq]
      exact hatt.line
    · rw [heq]
      simp only [ended, hatt.att, hshreg, hcrc8, hcrc16, hbyte, hbit, hret]
  refine ⟨fun hretry => hends 0 (fun m hm => ?_) (.inl ⟨rfl, hretry⟩), fun hretry hsecond hthird =>
    hends 2 (fun m hm => ?_) (.inr ⟨rfl, hretry⟩)⟩
  · rwa [Nat.le_zero.mp hm]
  · obtain rfl | rfl | rfl : m = 0 ∨ m = 1 ∨ m = 2 := by omega
    · exact hfirst
    · exact hsecond
    · exact hthird

end Sys2Proof.Proofs
end

/-! ### The transactions of a present peripheral, in closed form (R187 to R192) -/

section
namespace Sys2Proof.Proofs

open Sys2Proof.Machine Sys2Proof.Safety

/-- Bytes answered from the k-th sample on, as the buffer they fill. -/
def answeredVector (l : Line) (k n : Nat) : Vector Byte n := Vector.ofFn fun i => answeredByte l (k + 8 * i.val)

theorem answeredVector_toList (l : Line) (k n : Nat) : (answeredVector l k n).toList = answeredBytes l k n := by
  apply List.ext_getElem
  · simp [answeredBytes]
  · intro j h1 h2
    simp [answeredVector, answeredBytes]

theorem vector_eq_of_toList {n : Nat} {v w : Vector Byte n} (h : v.toList = w.toList) : v = w :=
  Vector.toList_inj.mp h

/-- A buffer filled whole holds the answers and nothing of what it held. -/
theorem filled_whole {n : Nat} (v : Vector Byte n) (l : Line) : filled v l n = answeredVector l 0 n :=
  vector_eq_of_toList (by rw [filled_toList v l n le_rfl, answeredVector_toList]; simp)

theorem lineAfter_answeredVector {g : Config.Gap} {l m : Line} {ops : List (List Event)} {i : Nat}
    (h : LineAfter g l m ops i) (k n : Nat) : answeredVector m k n = answeredVector l (i + k) n :=
  vector_eq_of_toList (by rw [answeredVector_toList, answeredVector_toList, lineAfter_answeredBytes h])

/-! #### The selections (R187, R188) -/

/-- The line after the gate and one byte sent. -/
def selectLine (g : Config.Gap) (v : Byte) (l : Line) : Line := lineAfterByte g v (resetLine g l)

theorem selectLine_after (g : Config.Gap) (v : Byte) (l : Line) :
    LineAfter g l (selectLine g v l) (resetEvents (answer l 0) :: byteOps v) 1 :=
  lineAfter_append (resetLine_after g l) (lineAfterByte_after g v _)

/-- A present peripheral selected with this byte. -/
def selected (v : Byte) (s : State) : State :=
  { s with
    line := selectLine s.cfg.tGap v s.line, shreg := v, seq := { s.seq with bitCnt := 7 }
    flags := { s.flags with present := true }, ret := 0, res := .ok }

theorem select_present (v : Byte) {s : State} (h : answer s.line 0 = false) :
    thenOk (doWbyte v) (gate s) = selected v s := by
  rw [thenOk_gate_present _ h, doWbyte_eq, gate_eq, h]
  rfl

theorem require_eq (flag : State → Bool) (f : Failure) (s : State) :
    require flag f s = { s with res := if flag s then s.res else .failed f } := by
  cases h : flag s with
  | true => rw [require_true f h]; rfl
  | false => rw [require_false f h]; rfl

/-! #### `READ_IDENTIFIER` (R189) -/

/-- The line after the identifier is read. -/
def identifierLine (g : Config.Gap) (l : Line) : Line := lineAfterReads g 64 (selectLine g Config.cmdReadRom l)

theorem identifierLine_after (g : Config.Gap) (l : Line) :
    LineAfter g l (identifierLine g l) (identifierOps l 0) 65 := by
  have hsel := selectLine_after g Config.cmdReadRom l
  have h := lineAfter_append hsel (lineAfterReads_after g 64 _)
  rw [lineAfter_readOps hsel] at h
  exact h

/-- The CRC8 of the identifier answered. -/
def identifierCrc (l : Line) : Byte := crc8Bits 0 (answeredBytes l 1 8)

/-- An identifier read from a present peripheral, and checked. -/
def identifierRead (s : State) : State :=
  { s with
    line := identifierLine s.cfg.tGap s.line
    shreg := answeredByte s.line 57, ret := answeredByte s.line 57
    seq := { s.seq with byteCnt := 7, bitCnt := 7 }
    flags := { s.flags with present := true, crc8Ok := decide (identifierCrc s.line = 0) }
    crc8r := identifierCrc s.line
    session := { s.session with ident := answeredVector s.line 1 8 }
    res := if identifierCrc s.line = 0 then .ok else .failed (.integrity .crc8Id) }

theorem doReadIdentifier_present {s : State} (h : answer s.line 0 = false) : doReadIdentifier s = identifierRead s := by
  have hsel := selectLine_after s.cfg.tGap Config.cmdReadRom s.line
  have hident : filled s.session.ident (selectLine s.cfg.tGap Config.cmdReadRom s.line) 8 =
      answeredVector s.line 1 8 := (filled_whole _ _).trans (lineAfter_answeredVector hsel 0 8)
  have hcrc : crc8Of (answeredVector s.line 1 8).toList = identifierCrc s.line := by
    rw [crc8Of_eq, answeredVector_toList, identifierCrc]
  rw [doReadIdentifier, doSelectRead, select_present _ h, thenOk_ok (s := selected _ s) _ rfl,
    doRblock_ident_eq 8 _ le_rfl (by decide), thenOk_ok _ rfl, checkIdentifier, require_eq, doCrc8Check_eq]
  simp only [selected, afterRblock, hident, hcrc, crc8OkOf, decide_eq_true_eq, lineAfter_answeredByte hsel]
  rfl

theorem transacted_identifierRead (u : State) : Transacted u (identifierRead u) (identifierOps u.line 0) 65 :=
  ⟨rfl, rfl, rfl, rfl, rfl, identifierLine_after _ _⟩

/-! #### `SOFT_RESET_TXN` (R192) -/

/-- The line after the peripheral is selected and the seven bytes are sent. -/
def softSentLine (g : Config.Gap) (l : Line) : Line :=
  lineAfterBytes g Config.cmdSoftReset (selectLine g Config.cmdSkipRom l)

/-- The line after the answer to a soft reset is read. -/
def softLine (g : Config.Gap) (l : Line) : Line := lineAfterReads g 16 (softSentLine g l)

theorem softSentLine_after (g : Config.Gap) (l : Line) :
    LineAfter g l (softSentLine g l)
      (resetEvents (answer l 0) :: bytesOps (Config.cmdSkipRom :: Config.cmdSoftReset)) 1 :=
  lineAfter_append (selectLine_after g Config.cmdSkipRom l) (lineAfterBytes_after g Config.cmdSoftReset _)

theorem softLine_after (g : Config.Gap) (l : Line) : LineAfter g l (softLine g l) (softOps l 0) 17 := by
  have hsent := softSentLine_after g l
  have h := lineAfter_append hsent (lineAfterReads_after g 16 _)
  rw [lineAfter_readOps hsent] at h
  exact h

/-- The CRC16 of the seven bytes sent and the two answered. -/
def softCrc (l : Line) : Half := crc16Bits 0 (Config.cmdSoftReset ++ answeredBytes l 1 2)

/-- A soft reset sent to a present peripheral, and its answer read. -/
def softExchanged (s : State) : State :=
  { s with
    line := softLine s.cfg.tGap s.line
    shreg := answeredByte s.line 9, ret := answeredByte s.line 9
    seq := { s.seq with byteCnt := 1, bitCnt := 7 }
    flags := { s.flags with present := true }
    session := { s.session with mbuf := filled s.session.mbuf (softSentLine s.cfg.tGap s.line) 2 }
    res := .ok }

/-- The answer checked. -/
def softAnswered (s : State) : State :=
  { softExchanged s with
    flags := { s.flags with present := true, crc16Ok := decide (softCrc s.line = Config.crc16Residual) }
    crc16r := softCrc s.line
    res := if softCrc s.line = Config.crc16Residual then .ok else .failed (.integrity .crc16Soft) }

theorem exchangeSoftReset_selected (s : State) :
    exchangeSoftReset (selected Config.cmdSkipRom s) = softExchanged s := by
  have hlast : answeredByte (softSentLine s.cfg.tGap s.line) 8 = answeredByte s.line 9 :=
    lineAfter_answeredByte (softSentLine_after s.cfg.tGap s.line) 8
  rw [exchangeSoftReset, doRblock_mbuf_eq 2 _ (by decide) (by decide), doWblock_eq, blockBytes_softReset,
    softExchanged, ← hlast]
  rfl

theorem filled_softFrame (v : Vector Byte 22) (g : Config.Gap) (l : Line) :
    [byteAt (filled v (softSentLine g l) 2) 0, byteAt (filled v (softSentLine g l) 2) 1] = answeredBytes l 1 2 := by
  have hsent := softSentLine_after g l
  rw [byteAt_filled _ _ _ _ (by decide), byteAt_filled _ _ _ _ (by decide), if_pos (by decide), if_pos (by decide),
    lineAfter_answeredByte hsent, lineAfter_answeredByte hsent]
  rfl

theorem checkSoft_softExchanged (s : State) : checkSoft (softExchanged s) = softAnswered s := by
  have hcrc : crc16Of (frameBytes (softExchanged s) .soft) = softCrc s.line := by
    rw [crc16Of_eq, softCrc, ← filled_softFrame s.session.mbuf s.cfg.tGap]
    rfl
  rw [checkSoft, require_eq, doCrc16Check_eq, hcrc]
  simp only [crc16OkOf, decide_eq_true_eq]
  rfl

theorem doSoftResetTxn_present {s : State} (h : answer s.line 0 = false) :
    doSoftResetTxn s = thenOk settle (softAnswered s) := by
  rw [doSoftResetTxn, doSelectSkip, select_present _ h, thenOk_ok (s := selected _ s) _ rfl,
    exchangeSoftReset_selected, thenOk_ok (s := softExchanged s) _ rfl, checkSoft_softExchanged]

theorem transacted_softAnswered (u : State) : Transacted u (softAnswered u) (softOps u.line 0) 17 := by
  unfold softAnswered softExchanged
  exact ⟨rfl, rfl, rfl, rfl, rfl, softLine_after _ _⟩

theorem softAnswered_crc8r (u : State) : (softAnswered u).crc8r = u.crc8r := by
  simp only [softAnswered, softExchanged]

theorem transacted_settle (u : State) : Transacted u (settle u) [[.W u.cfg.tSoftSettle.toNat]] 0 :=
  ⟨rfl, rfl, rfl, rfl, rfl, delayLine_after _ _ _⟩

theorem Transacted.trans {s t u : State} {as bs : List (List Event)} {i j : Nat} (h : Transacted s t as i)
    (k : Transacted t u bs j) : Transacted s u (as ++ bs) (i + j) where
  cfg := k.cfg.trans h.cfg
  env := k.env.trans h.env
  chalReq := k.chalReq.trans h.chalReq
  host := k.host.trans h.host
  att := k.att.trans h.att
  line := lineAfter_append h.line (h.cfg ▸ k.line)

end Sys2Proof.Proofs
end

/-! ### `GET_IDENTIFIER` and `SOFT_RESET` attempt by attempt (R241, R242, R244) -/

section
namespace Sys2Proof.Proofs

open Sys2Proof.Machine Sys2Proof.Safety

theorem flatMap_range_succ (ops : Nat → List (List Event)) (m : Nat) :
    (List.range (m + 1)).flatMap ops = (List.range m).flatMap ops ++ ops m := by
  simp [List.range_succ]

/-- Integrity failures are always retried (R247). -/
theorem retries_of_integrity {s : State} {c : Cause} (h : s.res = .failed (.integrity c)) : retries s = true :=
  retries_of_failed h

/-! #### `GET_IDENTIFIER` -/

/-- m identifiers read one after the other, whatever their checks said. -/
def IdentifiersRead (s : State) (m : Nat) (u : State) : Prop :=
  Attempted s m ((List.range m).flatMap fun j => identifierOps s.line (65 * j)) (65 * m) u ∧ u.crc16r = 0

/-- An attempt with presence reads one more identifier, which its CRC8 judges. -/
theorem IdentifiersRead.attempt {s u : State} {m : Nat} (h : IdentifiersRead s m u)
    (hpresent : answer s.line (65 * m) = false) :
    IdentifiersRead s (m + 1) (attempt doReadIdentifier u) ∧
      (attempt doReadIdentifier u).session.ident.toList = answeredBytes s.line (65 * m + 1) 8 ∧
      (attempt doReadIdentifier u).res =
        if crc8Bits 0 (answeredBytes s.line (65 * m + 1) 8) = 0 then .ok else .failed (.integrity .crc8Id) := by
  obtain ⟨hatt, hcrc16⟩ := h
  have hnext := hatt.next (transacted_identifierRead (setAtt (u.seq.att + 1) u))
  have hops : identifierOps u.line 0 = identifierOps s.line (65 * m) := by
    rw [identifierOps, identifierOps, hatt.answer, hatt.readOps]
    rfl
  rw [setAtt_line, hops, ← flatMap_range_succ fun j => identifierOps s.line (65 * j)] at hnext
  rw [Proofs.attempt, doReadIdentifier_present (s := setAtt (u.seq.att + 1) u) ((hatt.answer 0).trans hpresent)]
  refine ⟨⟨hnext, hcrc16⟩, ?_, ?_⟩
  · rw [← hatt.answeredBytes]
    exact answeredVector_toList _ _ _
  · rw [← hatt.answeredBytes]
    rfl

/-- After n wrong identifiers the command ends with the next attempt. -/
theorem getIdentifier_after_failures {s : State} {n : Nat} (hidle : s.flags.busy = false) (hn : n < 3)
    (hbad : ∀ m, m < n → answer s.line (65 * m) = false ∧ crc8Bits 0 (answeredBytes s.line (65 * m + 1) 8) ≠ 0)
    (hend : ∀ u, IdentifiersRead s n u → n = 2 ∨ retries (attempt doReadIdentifier u) = false) :
    ∃ u, IdentifiersRead s n u ∧ exec .getIdentifier s = .next (conclude .ident (attempt doReadIdentifier u)) := by
  have hfail : ∀ m u, m < n → IdentifiersRead s m u →
      IdentifiersRead s (m + 1) (attempt doReadIdentifier u) ∧ retries (attempt doReadIdentifier u) = true := by
    intro m u hm hu
    obtain ⟨hpresent, hcrc⟩ := hbad m hm
    obtain ⟨hnext, -, hres⟩ := hu.attempt hpresent
    rw [if_neg hcrc] at hres
    exact ⟨hnext, retries_of_integrity hres⟩
  obtain ⟨u, hu, heq⟩ := retry_eq_attempt hn (s := accept 1 s) ⟨attempted_start s 1, rfl⟩ hfail hend
  refine ⟨u, hu, congrArg Host.Outcome.next ?_⟩
  rw [whenIdle_of_idle _ hidle, runGetIdentifier, heq]

/-- Settles O38: the identifiers before the last attempt are wrong and retried; the last attempt is right, absent or the
third. -/
theorem getIdentifierEndsAtTheFirstVerdict : Obligations.GetIdentifierEndsAtTheFirstVerdict := by
  intro s n hidle hretry hn bytes bad ends hbad
  have hends : ∀ {u ops samples host}, exec .getIdentifier s = .next (ended s u host) →
      Attempted s (n + 1) (((List.range n).flatMap fun m => identifierOps s.line (65 * m)) ++ ops) samples u →
      u.crc16r = 0 → ends ops samples host := by
    intro u ops samples host hexec hatt hcrc16
    exact ⟨_, hexec, hatt.line, by simp only [ended, hatt.att, hcrc16]⟩
  have hread : ∀ {u}, IdentifiersRead s (n + 1) u →
      Attempted s (n + 1) (((List.range n).flatMap fun m => identifierOps s.line (65 * m)) ++
        identifierOps s.line (65 * n)) (65 * n + 65) u := by
    intro u hu
    rw [← flatMap_range_succ fun j => identifierOps s.line (65 * j)]
    exact hu.1
  refine ⟨fun habsent => ?_, fun hpresent hcrc => ?_, fun htwo ⟨hpresent, hcrc⟩ => ?_⟩
  · have hlast := fun u (hu : IdentifiersRead s n u) => hu.1.absent (fun _ => doReadIdentifier_absent) habsent
    obtain ⟨u, hu, hexec⟩ := getIdentifier_after_failures hidle hn hbad fun u hu =>
      .inr ((hlast u hu).retries.trans hretry)
    have hgate := hlast u hu
    rw [conclude_failed hgate.attempted.inCommand hgate.res] at hexec
    exact hends hexec hgate.attempted (hgate.crc16r.trans hu.2)
  · have hlast := fun u (hu : IdentifiersRead s n u) => hu.attempt hpresent
    have hok : ∀ u, IdentifiersRead s n u → (attempt doReadIdentifier u).res = .ok := fun u hu => by
      obtain ⟨-, -, hres⟩ := hlast u hu
      rwa [if_pos hcrc] at hres
    obtain ⟨u, hu, hexec⟩ := getIdentifier_after_failures hidle hn hbad fun u hu => .inr (retries_of_ok (hok u hu))
    obtain ⟨hatt, hident, -⟩ := hlast u hu
    rw [conclude_ok hatt.1.inCommand (hok u hu)] at hexec
    refine ⟨packIdent (attempt doReadIdentifier u).session.ident, fun j hj => ?_, hends hexec (hread hatt) hatt.2⟩
    rw [packIdent_byte _ hj, byteAt_eq_getD, hident]
  · obtain ⟨u, hu, hexec⟩ := getIdentifier_after_failures hidle hn hbad fun u _ => .inl htwo
    obtain ⟨hatt, -, hres⟩ := hu.attempt hpresent
    rw [if_neg hcrc] at hres
    rw [conclude_failed hatt.1.inCommand hres] at hexec
    exact hends hexec (hread hatt) hatt.2

/-! #### `SOFT_RESET` -/

/-- m soft resets sent and their answers read one after the other, whatever the checks said. -/
def SoftResetsAnswered (s : State) (m : Nat) (u : State) : Prop :=
  Attempted s m ((List.range m).flatMap fun j => softOps s.line (17 * j)) (17 * m) u ∧ u.crc8r = 0

/-- The frame of an answer is valid exactly when the answer is FB 6E (R192). -/
theorem softCrc_residual_iff (l : Line) : softCrc l = Config.crc16Residual ↔ answeredBytes l 1 2 = [0xFB, 0x6E] := by
  have hbytes : answeredBytes l 1 2 = [answeredByte l 1, answeredByte l 9] := rfl
  rw [softCrc, hbytes, crc16Bits_soft_iff]
  simp

/-- An attempt with presence reads one more answer, which its check judges before the settle delay. -/
theorem SoftResetsAnswered.attempt {s u : State} {m : Nat} (h : SoftResetsAnswered s m u)
    (hpresent : answer s.line (17 * m) = false) :
    ∃ t, SoftResetsAnswered s (m + 1) t ∧ attempt doSoftResetTxn u = thenOk settle t ∧
      t.res = if answeredBytes s.line (17 * m + 1) 2 = [0xFB, 0x6E] then .ok else .failed (.integrity .crc16Soft) := by
  obtain ⟨hatt, hcrc8⟩ := h
  have hnext := hatt.next (transacted_softAnswered (setAtt (u.seq.att + 1) u))
  have hops : softOps u.line 0 = softOps s.line (17 * m) := by
    rw [softOps, softOps, hatt.answer, hatt.readOps]
    rfl
  rw [setAtt_line, hops, ← flatMap_range_succ fun j => softOps s.line (17 * j)] at hnext
  refine ⟨softAnswered (setAtt (u.seq.att + 1) u), ⟨hnext, (softAnswered_crc8r _).trans hcrc8⟩, ?_, ?_⟩
  · exact doSoftResetTxn_present (s := setAtt (u.seq.att + 1) u) ((hatt.answer 0).trans hpresent)
  · rw [← hatt.answeredBytes, softAnswered]
    simp only [softCrc_residual_iff, setAtt_line]

/-- An attempt with a wrong answer has no settle delay and is retried while attempts are left. -/
theorem SoftResetsAnswered.attempt_bad {s u : State} {m : Nat} (h : SoftResetsAnswered s m u)
    (hpresent : answer s.line (17 * m) = false) (hbad : answeredBytes s.line (17 * m + 1) 2 ≠ [0xFB, 0x6E]) :
    SoftResetsAnswered s (m + 1) (Proofs.attempt doSoftResetTxn u) ∧
      (Proofs.attempt doSoftResetTxn u).res = .failed (.integrity .crc16Soft) := by
  obtain ⟨t, hnext, heq, hres⟩ := h.attempt hpresent
  rw [if_neg hbad] at hres
  rw [heq, thenOk_failed settle hres]
  exact ⟨hnext, hres⟩

/-- An attempt with the right answer ends after its settle delay. -/
theorem SoftResetsAnswered.attempt_good {s u : State} {m : Nat} (h : SoftResetsAnswered s m u)
    (hpresent : answer s.line (17 * m) = false) (hgood : answeredBytes s.line (17 * m + 1) 2 = [0xFB, 0x6E]) :
    Attempted s (m + 1)
        ((List.range m).flatMap (fun j => softOps s.line (17 * j)) ++
          (softOps s.line (17 * m) ++ [[.W s.cfg.tSoftSettle.toNat]])) (17 * m + 17) (Proofs.attempt doSoftResetTxn u) ∧
      (Proofs.attempt doSoftResetTxn u).crc8r = 0 ∧ (Proofs.attempt doSoftResetTxn u).res = .ok := by
  obtain ⟨t, ⟨hatt, hcrc8⟩, heq, hres⟩ := h.attempt hpresent
  rw [if_pos hgood] at hres
  have hsettled := hatt.append (transacted_settle t)
  rw [hatt.inCommand.cfg, flatMap_range_succ, List.append_assoc] at hsettled
  rw [heq, thenOk_ok settle hres]
  exact ⟨hsettled, hcrc8, hres⟩

/-- After n wrong answers the command ends with the next attempt. -/
theorem softReset_after_failures {s : State} {n : Nat} (hidle : s.flags.busy = false) (hn : n < 3)
    (hbad : ∀ m, m < n → answer s.line (17 * m) = false ∧ answeredBytes s.line (17 * m + 1) 2 ≠ [0xFB, 0x6E])
    (hend : ∀ u, SoftResetsAnswered s n u → n = 2 ∨ retries (attempt doSoftResetTxn u) = false) :
    ∃ u, SoftResetsAnswered s n u ∧ exec .softReset s = .next (conclude .nothing (attempt doSoftResetTxn u)) := by
  have hfail : ∀ m u, m < n → SoftResetsAnswered s m u →
      SoftResetsAnswered s (m + 1) (attempt doSoftResetTxn u) ∧ retries (attempt doSoftResetTxn u) = true := by
    intro m u hm hu
    obtain ⟨hpresent, hanswer⟩ := hbad m hm
    obtain ⟨hnext, hres⟩ := hu.attempt_bad hpresent hanswer
    exact ⟨hnext, retries_of_integrity hres⟩
  obtain ⟨u, hu, heq⟩ := retry_eq_attempt hn (s := accept 3 s) ⟨attempted_start s 3, rfl⟩ hfail hend
  refine ⟨u, hu, congrArg Host.Outcome.next ?_⟩
  rw [whenIdle_of_idle _ hidle, runSoftReset, heq]

/-- Settles O39: the answers before the last attempt are wrong and retried; the last attempt is right, absent or the
third. -/
theorem softResetEndsAtTheFirstVerdict : Obligations.SoftResetEndsAtTheFirstVerdict := by
  intro s n hidle hretry hn bytes bad ends hbad
  have hends : ∀ {u ops samples host}, exec .softReset s = .next (ended s u host) →
      Attempted s (n + 1) (((List.range n).flatMap fun m => softOps s.line (17 * m)) ++ ops) samples u →
      u.crc8r = 0 → ends ops samples host := by
    intro u ops samples host hexec hatt hcrc8
    exact ⟨_, hexec, hatt.line, by simp only [ended, hatt.att, hcrc8]⟩
  refine ⟨fun habsent => ?_, fun hpresent hgood => ?_, fun htwo ⟨hpresent, hwrong⟩ => ?_⟩
  · have hlast := fun u (hu : SoftResetsAnswered s n u) => hu.1.absent (fun _ => doSoftResetTxn_absent) habsent
    obtain ⟨u, hu, hexec⟩ := softReset_after_failures hidle hn hbad fun u hu =>
      .inr ((hlast u hu).retries.trans hretry)
    have hgate := hlast u hu
    rw [conclude_failed hgate.attempted.inCommand hgate.res] at hexec
    exact hends hexec hgate.attempted (hgate.crc8r.trans hu.2)
  · have hlast := fun u (hu : SoftResetsAnswered s n u) => hu.attempt_good hpresent hgood
    obtain ⟨u, hu, hexec⟩ := softReset_after_failures hidle hn hbad fun u hu =>
      have ⟨_, _, hok⟩ := hlast u hu
      .inr (retries_of_ok hok)
    obtain ⟨hatt, hcrc8, hres⟩ := hlast u hu
    rw [conclude_ok hatt.inCommand hres] at hexec
    exact hends hexec hatt hcrc8
  · obtain ⟨u, hu, hexec⟩ := softReset_after_failures hidle hn hbad fun u _ => .inl htwo
    obtain ⟨⟨hatt, hcrc8⟩, hres⟩ := hu.attempt_bad hpresent hwrong
    rw [conclude_failed hatt.inCommand hres] at hexec
    rw [flatMap_range_succ] at hatt
    exact hends hexec hatt hcrc8

end Sys2Proof.Proofs
end

/-! ### `AUTHENTICATE` whose transactions succeed (R190, R191, R243 to R248) -/

section
namespace Sys2Proof.Proofs

open Sys2Proof.Machine Sys2Proof.Safety

/-! #### `WRITE_CHALLENGE` (R190) -/

/-- The line after the peripheral is selected and the command and the challenge are sent. -/
def challengeSentLine (g : Config.Gap) (chal : Vector Byte 12) (l : Line) : Line :=
  lineAfterBytes g chal.toList (lineAfterByte g Config.cmdWriteChallenge (selectLine g Config.cmdSkipRom l))

/-- The line after the echo is read. -/
def challengeLine (g : Config.Gap) (chal : Vector Byte 12) (l : Line) : Line :=
  lineAfterReads g 96 (challengeSentLine g chal l)

theorem challengeSentLine_after (g : Config.Gap) (chal : Vector Byte 12) (l : Line) :
    LineAfter g l (challengeSentLine g chal l)
      (resetEvents (answer l 0) :: bytesOps ([Config.cmdSkipRom, Config.cmdWriteChallenge] ++ chal.toList)) 1 :=
  lineAfter_append (selectLine_after g Config.cmdSkipRom l)
    (lineAfter_append (lineAfterByte_after g Config.cmdWriteChallenge _) (lineAfterBytes_after g _ _))

theorem challengeLine_after (g : Config.Gap) (chal : Vector Byte 12) (l : Line) :
    LineAfter g l (challengeLine g chal l) (challengeOps l 0 chal) 97 := by
  have hsent := challengeSentLine_after g chal l
  have h := lineAfter_append hsent (lineAfterReads_after g 96 _)
  rw [lineAfter_readOps hsent] at h
  exact h

/-- A challenge sent to a present peripheral, and its echo read. -/
def challengeExchanged (s : State) : State :=
  { s with
    line := challengeLine s.cfg.tGap s.session.chal s.line
    shreg := answeredByte s.line 89, ret := answeredByte s.line 89
    seq := { s.seq with byteCnt := 11, bitCnt := 7 }
    flags := { s.flags with present := true }
    session := { s.session with echo := answeredVector s.line 1 12 }
    res := .ok }

theorem exchangeChallenge_selected (s : State) :
    exchangeChallenge (selected Config.cmdSkipRom s) = challengeExchanged s := by
  have hsent := challengeSentLine_after s.cfg.tGap s.session.chal s.line
  have hecho : filled s.session.echo (challengeSentLine s.cfg.tGap s.session.chal s.line) 12 =
      answeredVector s.line 1 12 := (filled_whole _ _).trans (lineAfter_answeredVector hsent 0 12)
  have hlast : answeredByte (challengeSentLine s.cfg.tGap s.session.chal s.line) (8 * (12 - 1)) =
      answeredByte s.line 89 := by
    rw [lineAfter_answeredByte hsent]
  rw [exchangeChallenge, doRblock_echo_eq 12 _ le_rfl (by decide), doWblock_eq, blockBytes_chal, doWbyte_eq,
    challengeExchanged, ← hlast, ← hecho]
  rfl

/-- An echo of the challenge is found equal to it (R190). -/
theorem echoOkOf_of_eq {m : Session} (h : m.echo = m.chal) : echoOkOf m = true := by
  simp [echoOkOf, h]

/-- The echo found right. -/
def challengeEchoed (s : State) : State :=
  { s with
    line := challengeLine s.cfg.tGap s.session.chal s.line
    shreg := answeredByte s.line 89, ret := answeredByte s.line 89
    seq := { s.seq with byteCnt := 11, bitCnt := 7 }
    flags := { s.flags with present := true, echoOk := true }
    session := { s.session with echo := s.session.chal }
    res := .ok }

theorem doWriteChallenge_echoed {s : State} (h : answer s.line 0 = false)
    (hecho : answeredBytes s.line 1 12 = s.session.chal.toList) : doWriteChallenge s = challengeEchoed s := by
  have heq : answeredVector s.line 1 12 = s.session.chal :=
    vector_eq_of_toList ((answeredVector_toList _ _ _).trans hecho)
  have hcheck : doEchoCheck (challengeExchanged s) = challengeEchoed s := by
    rw [doEchoCheck, echoOkOf_of_eq (m := (challengeExchanged s).session) heq]
    simp only [challengeExchanged, challengeEchoed, heq]
  rw [doWriteChallenge, doSelectSkip, select_present _ h, thenOk_ok (s := selected _ s) _ rfl,
    exchangeChallenge_selected, thenOk_ok (s := challengeExchanged s) _ rfl, checkEcho, hcheck, require_true _ rfl]

/-! #### `READ_AUTH_PAGE` (R191) -/

/-- The line after the peripheral is selected and the command is sent. -/
def pageSentLine (g : Config.Gap) (l : Line) : Line :=
  lineAfterBytes g Config.cmdReadAuthPage (selectLine g Config.cmdSkipRom l)

/-- The line after n bytes of the page frame are read. -/
def pageLine (g : Config.Gap) (n : Nat) (l : Line) : Line := lineAfterReads g (8 * n) (pageSentLine g l)

theorem pageSentLine_after (g : Config.Gap) (l : Line) :
    LineAfter g l (pageSentLine g l)
      (resetEvents (answer l 0) :: bytesOps (Config.cmdSkipRom :: Config.cmdReadAuthPage)) 1 :=
  lineAfter_append (selectLine_after g Config.cmdSkipRom l) (lineAfterBytes_after g _ _)

theorem pageLine_after (g : Config.Gap) (n : Nat) (l : Line) :
    LineAfter g l (pageLine g n l) (pageOps l 0 n) (1 + 8 * n) := by
  have hsent := pageSentLine_after g l
  have h := lineAfter_append hsent (lineAfterReads_after g (8 * n) _)
  rw [lineAfter_readOps hsent] at h
  exact h

/-- The line after the settle delay and the MAC frame. -/
def macLine (g : Config.Gap) (l : Line) : Line := lineAfterReads g 176 (delayLine g Config.tCsha l)

theorem macLine_after (g : Config.Gap) (l : Line) : LineAfter g l (macLine g l) (macOps l 0) 176 := by
  have hdelay := delayLine_after g Config.tCsha l
  have h := lineAfter_append hdelay (lineAfterReads_after g 176 _)
  rw [lineAfter_readOps hdelay] at h
  rw [Nat.zero_add] at h
  exact h

/-- The page command sent to a present peripheral, and n bytes of the page frame read. -/
def pageRead (n : Nat) (s : State) : State :=
  { s with
    line := pageLine s.cfg.tGap n s.line
    shreg := answeredByte s.line (1 + 8 * (n - 1)), ret := answeredByte s.line (1 + 8 * (n - 1))
    seq := { s.seq with byteCnt := BitVec.ofNat 6 (n - 1), bitCnt := 7 }
    flags := { s.flags with present := true }
    session := { s.session with rbuf := filled s.session.rbuf (pageSentLine s.cfg.tGap s.line) n }
    res := .ok }

theorem readPage_selected (s : State) :
    readPage (selected Config.cmdSkipRom s) = pageRead s.cfg.nPageRead.count.toNat s := by
  have hlast := lineAfter_answeredByte (pageSentLine_after s.cfg.tGap s.line)
    (8 * (s.cfg.nPageRead.count.toNat - 1))
  rw [readPage, sendReadAuthPage_eq, doRblock_rbuf_eq _ _ (pageRead_count_le _) (pageRead_count_ne_zero _), pageRead,
    ← hlast]
  rfl

/-- A frame found valid (R173). -/
def frameChecked (s : State) : State :=
  { s with crc16r := Config.crc16Residual, flags := { s.flags with crc16Ok := true } }

theorem checkFrame_valid {s : State} {frame : Frame} (f : Failure)
    (h : crc16Bits 0 (frameBytes s frame) = Config.crc16Residual) :
    require (fun t => t.flags.crc16Ok) f (doCrc16Check frame s) = frameChecked s := by
  rw [doCrc16Check_eq, crc16Of_eq, h]
  exact require_true f rfl

/-- The settle delay and the MAC frame read. -/
def macRead (s : State) : State :=
  { s with
    line := macLine s.cfg.tGap s.line
    shreg := answeredByte s.line 168, ret := answeredByte s.line 168
    seq := { s.seq with byteCnt := 21, bitCnt := 7 }
    session := { s.session with mbuf := answeredVector s.line 0 22 } }

theorem readMac_eq (s : State) : readMac s = macRead s := by
  have hdelay := delayLine_after s.cfg.tGap Config.tCsha s.line
  have hmac : filled s.session.mbuf (delayLine s.cfg.tGap Config.tCsha s.line) 22 = answeredVector s.line 0 22 :=
    (filled_whole _ _).trans (lineAfter_answeredVector hdelay 0 22)
  have hlast : answeredByte (delayLine s.cfg.tGap Config.tCsha s.line) (8 * (22 - 1)) = answeredByte s.line 168 := by
    rw [lineAfter_answeredByte hdelay]
  rw [readMac, doRblock_mbuf_eq 22 _ le_rfl (by decide), macRead, ← hlast, ← hmac]
  simp only [afterRblock, doDelay, macLine]
  rfl

/-- The page bytes of the page frame are those answered. -/
theorem pageRead_frame (s : State) :
    frameBytes (pageRead s.cfg.nPageRead.count.toNat s) .page =
      Config.cmdReadAuthPage ++ answeredBytes s.line 1 s.cfg.nPageRead.count.toNat := by
  have hfilled := filled_toList s.session.rbuf (pageSentLine s.cfg.tGap s.line) _ (pageRead_count_le s.cfg.nPageRead)
  have hlength : (answeredBytes s.line 1 s.cfg.nPageRead.count.toNat).length = s.cfg.nPageRead.count.toNat := by
    simp [answeredBytes]
  rw [lineAfter_answeredBytes (pageSentLine_after s.cfg.tGap s.line)] at hfilled
  change Config.cmdReadAuthPage ++ (filled s.session.rbuf _ _).toList.take s.cfg.nPageRead.count.toNat = _
  rw [hfilled, List.take_left' hlength]

/-- `READ_AUTH_PAGE` with two valid frames. -/
theorem doReadAuthPage_valid {s : State} (h : answer s.line 0 = false)
    (hpage : crc16Bits 0 (Config.cmdReadAuthPage ++ answeredBytes s.line 1 s.cfg.nPageRead.count.toNat) =
      Config.crc16Residual)
    (hmac : crc16Bits 0 (answeredBytes s.line (1 + 8 * s.cfg.nPageRead.count.toNat) 22) = Config.crc16Residual) :
    doReadAuthPage s = frameChecked (macRead (frameChecked (pageRead s.cfg.nPageRead.count.toNat s))) := by
  have hread := pageLine_after s.cfg.tGap s.cfg.nPageRead.count.toNat s.line
  have hcheckPage : checkPage (pageRead s.cfg.nPageRead.count.toNat s) =
      frameChecked (pageRead s.cfg.nPageRead.count.toNat s) :=
    checkFrame_valid _ (by rw [pageRead_frame, hpage])
  have hmbuf : frameBytes (macRead (frameChecked (pageRead s.cfg.nPageRead.count.toNat s))) .mac =
      answeredBytes s.line (1 + 8 * s.cfg.nPageRead.count.toNat) 22 :=
    (answeredVector_toList _ _ _).trans (lineAfter_answeredBytes hread 0 22)
  have hcheckMac := checkFrame_valid (frame := .mac) (.integrity .crc16Mac)
    (s := macRead (frameChecked (pageRead s.cfg.nPageRead.count.toNat s))) (by rw [hmbuf, hmac])
  rw [doReadAuthPage, doSelectSkip, select_present _ h, thenOk_ok (s := selected _ s) _ rfl, readPage_selected,
    thenOk_ok (s := pageRead _ s) _ rfl, hcheckPage, thenOk_ok (s := frameChecked (pageRead _ s)) _ rfl, readMac_eq,
    thenOk_ok (s := macRead (frameChecked (pageRead _ s))) _ rfl]
  exact hcheckMac

/-! #### The comparator and the MAC (R220, R223) -/

/-- All 20 bytes agree. -/
theorem macOkOf_iff (m : Session) : macOkOf m = true ↔ m.mbuf.toList.take 20 = m.mach.toList := by
  have hbytes : macOkOf m = true ↔ ∀ j, j < 20 → byteAt m.mach j = byteAt m.mbuf j := by simp [macOkOf]
  rw [hbytes]
  constructor
  · intro h
    refine List.ext_getElem (by simp) fun j hj _ => ?_
    have hj20 : j < 20 := by simpa using hj
    have hj' := h j hj20
    rw [byteAt_lt _ hj20, byteAt_lt _ (by omega)] at hj'
    simp [hj']
  · intro h j hj
    rw [byteAt_eq_getD, byteAt_eq_getD, ← h, List.getD_eq_getElem?_getD, List.getElem?_take_of_lt hj,
      List.getD_eq_getElem?_getD]

/-- The MAC block reads the identifier, the challenge, the page and the secret (R112). -/
theorem macBlock_congr (layout : Vector Config.MacSource 64) {m k : Session} (hident : m.ident = k.ident)
    (hchal : m.chal = k.chal) (hrbuf : m.rbuf = k.rbuf) (hsecret : m.secret = k.secret) :
    macBlock layout m = macBlock layout k := by
  have hsource : macSourceByte m = macSourceByte k := by
    funext source
    cases source <;> simp only [macSourceByte, hident, hchal, hrbuf, hsecret]
  rw [macBlock, macBlock, hsource]

theorem macOf_eq_expectedMac {s : State} (hsecret : s.session.secret = secretOf s.cfg s.session.ident) :
    macOf s = expectedMac s.cfg s.session.ident s.session.chal s.session.rbuf := by
  rw [macOf, expectedMac, macBlock_congr s.cfg.macLayout (m := s.session)
    (k := { Session.zero with
      ident := s.session.ident, chal := s.session.chal, rbuf := s.session.rbuf
      secret := secretOf s.cfg s.session.ident }) rfl rfl rfl hsecret]

/-- The state after the comparator, whose flag decides the result (R246, R248). -/
def macJudged (s : State) (sha : ShaRegs) (ok : Bool) : State :=
  { s with
    session := { s.session with mach := macOf s }, sha := sha, flags := { s.flags with macOk := ok }
    res := if ok then s.res else .failed .macMismatch }

theorem judgeMac_eq (s : State) :
    ∃ sha, judgeMac s = macJudged s sha (decide (s.session.mbuf.toList.take 20 = (macOf s).toList)) := by
  obtain ⟨sha, hmac⟩ := doComputeMac_eq s
  have hok : macOkOf { s.session with mach := macOf s } =
      decide (s.session.mbuf.toList.take 20 = (macOf s).toList) := by
    rw [Bool.eq_iff_iff, macOkOf_iff, decide_eq_true_iff]
  refine ⟨sha, ?_⟩
  rw [judgeMac, require_eq, hmac, doVerifyMac, macJudged, ← hok]

/-! #### What each part leaves alone -/

theorem transacted_challengeEchoed (u : State) :
    Transacted u (challengeEchoed u) (challengeOps u.line 0 u.session.chal) 97 := by
  unfold challengeEchoed
  exact ⟨rfl, rfl, rfl, rfl, rfl, challengeLine_after _ _ _⟩

theorem transacted_pageRead (n : Nat) (u : State) : Transacted u (pageRead n u) (pageOps u.line 0 n) (1 + 8 * n) := by
  unfold pageRead
  exact ⟨rfl, rfl, rfl, rfl, rfl, pageLine_after _ _ _⟩

theorem transacted_frameChecked (u : State) : Transacted u (frameChecked u) [] 0 := by
  unfold frameChecked
  exact ⟨rfl, rfl, rfl, rfl, rfl, lineAfter_none _ _⟩

theorem transacted_macRead (u : State) : Transacted u (macRead u) (macOps u.line 0) 176 := by
  unfold macRead
  exact ⟨rfl, rfl, rfl, rfl, rfl, macLine_after _ _⟩

/-! #### The identifier phase and the secret (R243) -/

/-- A unit whose first attempt is not to be retried. -/
theorem retry_of_first_attempt {body : State → State} {s : State} (h : retries (attempt body (setAtt 0 s)) = false) :
    retry body s = attempt body (setAtt 0 s) := retryFrom_of_not_retries 2 h

/-- A valid identifier at the first attempt. -/
theorem identifier_found {s : State} {ident : Vector Byte 8} (hpresent : answer s.line 0 = false)
    (hident : answeredBytes s.line 1 8 = ident.toList) (hcrc : crc8Bits 0 ident.toList = 0) :
    ∃ found, retry doReadIdentifier (accept 2 s) = found ∧ Attempted s 1 (identifierOps s.line 0) 65 found ∧
      found.session = { Session.zero with ident := ident } ∧ found.crc8r = 0 ∧ found.res = .ok := by
  have hread : attempt doReadIdentifier (setAtt 0 (accept 2 s)) = identifierRead (setAtt 1 (setAtt 0 (accept 2 s))) :=
    doReadIdentifier_present hpresent
  have hvalid : identifierCrc s.line = 0 := by rw [identifierCrc, hident, hcrc]
  have hres : (identifierRead (setAtt 1 (setAtt 0 (accept 2 s)))).res = .ok := if_pos hvalid
  have hvector : answeredVector s.line 1 8 = ident :=
    vector_eq_of_toList ((answeredVector_toList _ _ _).trans hident)
  refine ⟨_, (retry_of_first_attempt (by rw [hread]; exact retries_of_ok hres)).trans hread, ?_, ?_, hvalid, hres⟩
  · exact (attempted_start s 2).next (transacted_identifierRead _)
  · rw [← hvector]
    rfl

/-- The secret derived, and the first authentication attempt begun. -/
theorem secret_derived {s found : State} {ops : List (List Event)} {k : Nat} (h : Attempted s 1 ops k found) :
    ∃ t, setAtt 1 (setAtt 0 (doDeriveSecret found)) = t ∧ Attempted s 1 ops k t ∧
      t.session = { found.session with secret := secretOf s.cfg found.session.ident } ∧ t.crc8r = found.crc8r := by
  obtain ⟨sha, hderive⟩ := doDeriveSecret_eq found
  refine ⟨_, rfl, ?_, ?_, ?_⟩
  · rw [hderive]
    exact ⟨⟨h.inCommand.cfg, h.inCommand.env, h.inCommand.chalReq, h.inCommand.host⟩, rfl, h.line⟩
  · rw [hderive, h.inCommand.cfg]
    rfl
  · rw [hderive]
    rfl

/-! #### The authentication attempt (R246) -/

/-- The block from which a command has drawn one challenge. -/
def drawn (s : State) : State :=
  { s with
    chalReq := false
    env := { s.env with chalScript := s.env.chalScript.tail, chalNo := s.env.chalNo + 1 } }

theorem challengeAnswer_congr {s t : State} (h : t.env = s.env) : challengeAnswer t = challengeAnswer s := by
  rw [challengeAnswer, challengeAnswer, chalIn, chalIn, h]

theorem Attempted.draw {s t : State} {n k : Nat} {ops : List (List Event)} (h : Attempted s n ops k t) :
    Attempted (drawn s) n (ops ++ [[.C (challengeAnswer s)]]) k (drawChallenge t) where
  inCommand := ⟨h.inCommand.cfg, by rw [drawChallenge_env, h.inCommand.env]; rfl, rfl, h.inCommand.host⟩
  att := h.att
  line := by
    have hdraw := lineAfter_append h.line (h.inCommand.cfg ▸ drawChallenge_after t)
    rw [challengeAnswer_congr h.inCommand.env] at hdraw
    exact hdraw

theorem Attempted.challengeOps {s t : State} {n samples : Nat} {ops : List (List Event)}
    (h : Attempted s n ops samples t) (chal : Vector Byte 12) :
    challengeOps t.line 0 chal = challengeOps s.line samples chal := by
  rw [Safety.challengeOps, Safety.challengeOps, h.answer, h.readOps]
  rfl

theorem Attempted.pageOps {s t : State} {n samples : Nat} {ops : List (List Event)} (h : Attempted s n ops samples t)
    (count : Nat) : pageOps t.line 0 count = pageOps s.line samples count := by
  rw [Safety.pageOps, Safety.pageOps, h.answer, h.readOps]
  rfl

theorem Attempted.macOps {s t : State} {n samples : Nat} {ops : List (List Event)} (h : Attempted s n ops samples t) :
    macOps t.line 0 = macOps s.line samples := by
  rw [Safety.macOps, Safety.macOps, h.readOps]
  rfl

/-- What the line answers from the k-th sample on: presence and the echo, presence and two valid frames, the page frame
of n bytes with these in `RBUF`. -/
structure ValidAnswers (s : State) (k n : Nat) (rbuf : Vector Byte 31) : Prop where
  present : answer s.line k = false
  echo : answeredBytes s.line (k + 1) 12 = (challengeAnswer s).toList
  pagePresent : answer s.line (k + 97) = false
  page : rbuf.toList = answeredBytes s.line (k + 98) n ++ List.replicate (31 - n) 0
  pageCrc : crc16Bits 0 (Config.cmdReadAuthPage ++ answeredBytes s.line (k + 98) n) = Config.crc16Residual
  macCrc : crc16Bits 0 (answeredBytes s.line (k + 98 + 8 * n) 22) = Config.crc16Residual

/-- A challenge drawn, sent and echoed. -/
theorem challenge_echoed {s d : State} {ops : List (List Event)} {k n : Nat} {rbuf : Vector Byte 31}
    (h : Attempted s 1 ops k d) (hvalid : ValidAnswers s k n rbuf) :
    ∃ w, doWriteChallenge (drawChallenge d) = w ∧
      Attempted (drawn s) 1
        (ops ++ [[.C (challengeAnswer s)]] ++ challengeOps s.line k (challengeAnswer s)) (k + 97) w ∧
      w.session = { d.session with chal := challengeAnswer s, echo := challengeAnswer s } ∧
      w.crc8r = d.crc8r ∧ w.res = .ok := by
  have hdraw := h.draw
  have hchal : (drawChallenge d).session.chal = challengeAnswer s := challengeAnswer_congr h.inCommand.env
  have hecho : answeredBytes (drawChallenge d).line 1 12 = (drawChallenge d).session.chal.toList := by
    rw [hdraw.answeredBytes, hchal]
    exact hvalid.echo
  have hops := hdraw.append (transacted_challengeEchoed _)
  rw [hdraw.challengeOps, hchal] at hops
  refine ⟨_, doWriteChallenge_echoed ((hdraw.answer 0).trans hvalid.present) hecho, hops, ?_, rfl, rfl⟩
  rw [← hchal]
  rfl

/-- The page frame as `RBUF` holds it, which was 0 before. -/
theorem filled_page {s w : State} {ops : List (List Event)} {k n : Nat} {rbuf : Vector Byte 31}
    (h : Attempted (drawn s) 1 ops (k + 97) w) (hvalid : ValidAnswers s k n rbuf) (hn : n ≤ 31)
    (hempty : w.session.rbuf = Vector.replicate 31 0) :
    filled w.session.rbuf (pageSentLine w.cfg.tGap w.line) n = rbuf := by
  refine vector_eq_of_toList ?_
  rw [filled_toList _ _ n hn, lineAfter_answeredBytes (pageSentLine_after w.cfg.tGap w.line), h.answeredBytes, hempty,
    hvalid.page, Vector.toList_replicate, List.drop_replicate]
  rfl

/-- The two frames read. -/
theorem frames_read {s w : State} {ops : List (List Event)} {k n : Nat} {rbuf : Vector Byte 31}
    (h : Attempted (drawn s) 1 ops (k + 97) w) (hvalid : ValidAnswers s k n rbuf)
    (hn : n = s.cfg.nPageRead.count.toNat) (hempty : w.session.rbuf = Vector.replicate 31 0) :
    ∃ p, doReadAuthPage w = p ∧
      Attempted (drawn s) 1 (ops ++ pageOps s.line (k + 97) n ++ macOps s.line (k + 98 + 8 * n)) (k + 274 + 8 * n) p ∧
      p.session = { w.session with rbuf := rbuf, mbuf := answeredVector s.line (k + 98 + 8 * n) 22 } ∧
      p.crc8r = w.crc8r ∧ p.crc16r = Config.crc16Residual ∧ p.seq.byteCnt = 21 ∧ p.seq.bitCnt = 7 ∧ p.res = .ok := by
  have hcount : w.cfg.nPageRead.count.toNat = n := by rw [hn, h.inCommand.cfg]; rfl
  have hle : n ≤ 31 := hcount ▸ pageRead_count_le w.cfg.nPageRead
  have hread := (h.append (transacted_pageRead n w)).append (transacted_frameChecked _)
  rw [List.append_nil, h.pageOps, show k + 97 + (1 + 8 * n) + 0 = k + 98 + 8 * n by omega] at hread
  have hmac := (hread.append (transacted_macRead _)).append (transacted_frameChecked _)
  rw [List.append_nil, hread.macOps, show k + 98 + 8 * n + 176 + 0 = k + 274 + 8 * n by omega] at hmac
  have hpageCrc : crc16Bits 0 (Config.cmdReadAuthPage ++ answeredBytes w.line 1 n) = Config.crc16Residual := by
    rw [h.answeredBytes]
    exact hvalid.pageCrc
  have hmacCrc : crc16Bits 0 (answeredBytes w.line (1 + 8 * n) 22) = Config.crc16Residual := by
    rw [h.answeredBytes, show k + 97 + (1 + 8 * n) = k + 98 + 8 * n by omega]
    exact hvalid.macCrc
  have hvector : answeredVector (pageLine w.cfg.tGap n w.line) 0 22 = answeredVector s.line (k + 98 + 8 * n) 22 :=
    lineAfter_answeredVector hread.line 0 22
  have hframes := doReadAuthPage_valid (s := w) ((h.answer 0).trans hvalid.pagePresent)
    (by rw [hcount]; exact hpageCrc) (by rw [hcount]; exact hmacCrc)
  rw [hcount] at hframes
  refine ⟨_, hframes, hmac, ?_, ?_⟩
  · simp only [frameChecked, macRead, pageRead, hvector, filled_page h hvalid hle hempty]
  · simp only [frameChecked, macRead, pageRead, and_self]

/-- The registers an authentication attempt with two valid frames leaves for the comparator. -/
theorem authTransactions_valid {s d : State} {ops : List (List Event)} {k n : Nat} {rbuf : Vector Byte 31}
    (h : Attempted s 1 ops k d) (hvalid : ValidAnswers s k n rbuf) (hn : n = s.cfg.nPageRead.count.toNat)
    (hempty : d.session.rbuf = Vector.replicate 31 0) :
    ∃ p, authTransactions d = p ∧
      Attempted (drawn s) 1
        (ops ++ [[.C (challengeAnswer s)]] ++ challengeOps s.line k (challengeAnswer s) ++ pageOps s.line (k + 97) n ++
          macOps s.line (k + 98 + 8 * n)) (k + 274 + 8 * n) p ∧
      p.session = { d.session with
        chal := challengeAnswer s, echo := challengeAnswer s, rbuf := rbuf
        mbuf := answeredVector s.line (k + 98 + 8 * n) 22 } ∧
      p.crc8r = d.crc8r ∧ p.crc16r = Config.crc16Residual ∧ p.seq.byteCnt = 21 ∧ p.seq.bitCnt = 7 ∧ p.res = .ok := by
  obtain ⟨w, hw, hattw, hsession, hcrc8, hres⟩ := challenge_echoed h hvalid
  obtain ⟨p, hp, hattp, hsession', hcrc8', hrest⟩ := frames_read hattw hvalid hn (by rw [hsession]; exact hempty)
  refine ⟨p, ?_, hattp, by rw [hsession', hsession], hcrc8'.trans hcrc8, hrest⟩
  rw [authTransactions, hw, thenOk_ok _ hres, hp]

/-! #### The whole command (R243) -/

/-- What the host reads after the comparator (R224, R248). -/
def verdictHost (rbuf : Vector Byte 31) (ok : Bool) : HostRegs :=
  if ok then ⟨.ok, .none, 0, packTrusted rbuf⟩ else ⟨.authenticationFailure, .none, 0, 0⟩

theorem conclude_macJudged {s p : State} (h : InCommand s p) (hres : p.res = .ok) (sha : ShaRegs) (ok : Bool) :
    conclude .trusted (macJudged p sha ok) = ended s p (verdictHost p.session.rbuf ok) := by
  have hin : InCommand s (macJudged p sha ok) := by
    unfold macJudged
    exact ⟨h.cfg, h.env, h.chalReq, h.host⟩
  have hended : ∀ host, ended s (macJudged p sha ok) host = ended s p host := fun host => by
    simp only [ended, macJudged]
  cases ok with
  | true =>
    rw [conclude_ok hin (by simp only [macJudged, if_true, hres]), hended]
    simp only [macJudged, writeOutput, verdictHost, if_true]
  | false =>
    rw [conclude_failed hin (f := .macMismatch) (by simp only [macJudged, Bool.false_eq_true, if_false]), hended]
    rfl

/-- The command whose first attempts lead to the comparator. -/
theorem runAuthenticate_judged {s found d p : State} (hfound : retry doReadIdentifier (accept 2 s) = found)
    (hres : found.res = .ok) (hd : setAtt 1 (setAtt 0 (doDeriveSecret found)) = d) (hp : authTransactions d = p)
    (hok : p.res = .ok) : runAuthenticate s = conclude .trusted (judgeMac p) := by
  have hattempt : attempt authAttempt (setAtt 0 (doDeriveSecret found)) = judgeMac p := by
    change authAttempt (setAtt 1 (setAtt 0 (doDeriveSecret found))) = judgeMac p
    rw [hd, authAttempt_eq, hp, thenOk_ok _ hok]
  obtain ⟨sha, hjudged⟩ := judgeMac_eq p
  have hstop : retries (judgeMac p) = false := by
    rw [hjudged]
    refine retries_of_judged ?_
    unfold macJudged
    split
    · exact .inl hok
    · exact .inr rfl
  rw [runAuthenticate, hfound, authenticateFrom]
  simp only [hres]
  rw [retry_of_first_attempt (by rw [hattempt]; exact hstop), hattempt]

/-- Settles O40: the identifier, the challenge and the two frames go well at the first attempts, and the comparator
decides. -/
theorem authenticateJudgesTheMac : Obligations.AuthenticateJudgesTheMac := by
  intro s ident rbuf n chal mac hidle hpresent hident hcrc8 hpresent2 hecho hpresent3 hpage hpageCrc hmacCrc
  have hvalid : ValidAnswers s 65 n rbuf := ⟨hpresent2, hecho, hpresent3, hpage, hpageCrc, hmacCrc⟩
  obtain ⟨found, hfound, hattf, hsessf, hcrcf, hresf⟩ := identifier_found hpresent hident hcrc8
  obtain ⟨d, hd, hattd, hsessd, hcrcd⟩ := secret_derived hattf
  obtain ⟨p, hp, hattp, hsessp, hcrcp, hcrc16, hbyte, hbit, hresp⟩ :=
    authTransactions_valid hattd hvalid rfl (by rw [hsessd, hsessf]; rfl)
  obtain ⟨sha, hjudged⟩ := judgeMac_eq p
  have hcfg : p.cfg = s.cfg := hattp.inCommand.cfg
  rw [hsessd, hsessf] at hsessp
  have hmbuf : p.session.mbuf.toList = mac := by
    rw [hsessp]
    exact answeredVector_toList _ _ _
  have hmacOf : macOf p = expectedMac s.cfg ident chal rbuf := by
    rw [macOf_eq_expectedMac (by rw [hsessp, hcfg]), hcfg, hsessp]
  have hrbuf : p.session.rbuf = rbuf := by rw [hsessp]
  have hrun : exec .authenticate s = .next (ended (drawn s) p
      (verdictHost rbuf (decide (mac.take 20 = (expectedMac s.cfg ident chal rbuf).toList)))) := by
    refine congrArg Host.Outcome.next ?_
    rw [whenIdle_of_idle _ hidle, runAuthenticate_judged hfound hresf hd hp hresp, hjudged,
      conclude_macJudged hattp.inCommand hresp, hmbuf, hmacOf, hrbuf]
  refine ⟨_, packTrusted rbuf, hrun, fun j hj => packTrusted_byte rbuf hj, ?_, ?_⟩
  · have hline := hattp.line
    rw [List.append_assoc (identifierOps s.line 0)] at hline
    exact hline
  · simp only [ended, hattp.att, hcrcp, hcrcd, hcrcf, hcrc16, hbyte, hbit, verdictHost, decide_eq_true_eq]
    rfl

end Sys2Proof.Proofs
end

/-! ### The tables beside the definitions by bits (R60 to R62, R166 to R172) -/

section
namespace Sys2Proof.Proofs

open Sys2Proof.Machine

theorem crc8Next_eq_crc8Bits (c b : Byte) : crc8Next c b = crc8Bits c [b] := foldl_crc8Next [b] c

theorem crc16Next_eq_crc16Bits (c : Half) (b : Byte) : crc16Next c b = crc16Bits c [b] := foldl_crc16Next [b] c

theorem t8_eq_crc8Bits (i : Byte) : t8 i = crc8Bits 0 [i] := by
  have hzero : (0 : Byte) ^^^ i = i := BitVec.zero_xor
  rw [crc8Bits_cons, hzero]
  exact t8_eq_shift8 i

theorem t16_eq_crc16Bits (i : Byte) : t16 i = crc16Bits 0 [i] := by
  have hzero : (0 : Half) ^^^ i.zeroExtend 16 = i.zeroExtend 16 := BitVec.zero_xor
  rw [crc16Bits_cons, hzero]
  exact t16_eq_shift8 i

/-- Settles O19: an update is one round of the fold that `foldl_crc8Next` and `foldl_crc16Next` hold to the definitions
by bits, and a table entry is the eight shift steps of its index. -/
theorem updatesByTableAreTheDefinitions : Obligations.UpdatesByTableAreTheDefinitions :=
  ⟨fun i => ⟨t8_eq_crc8Bits i, t16_eq_crc16Bits i⟩,
    fun s b => ⟨rfl, crc8Next_eq_crc8Bits s.crc8r b, rfl, crc16Next_eq_crc16Bits s.crc16r b⟩⟩

end Sys2Proof.Proofs
end

/-! ### Where the block stops (R60, R109, R153, R154)

A block operation faults exactly when it does not fit its buffer. Every operation that `SEQ` names and every one that
the decoder reads is well formed, hence fits, and a legal position always names an operation. -/

section
namespace Sys2Proof.Proofs

open Sys2Proof.Machine Sys2Proof.Safety

/-! #### The block operations at the end of their buffer -/

theorem exec_wblock_overrun {src : BlockSource} {n : BitVec 6} (h : src.length < n.toNat) (s : State) :
    exec (.wblock src n) s = .fault (.blockOverrun src.length n.toNat) := if_neg (by omega)

theorem exec_rblock_overrun {buf : Buf} {n : BitVec 6} (h : buf.length < n.toNat) (s : State) :
    exec (.rblock buf n) s = .fault (.blockOverrun buf.length n.toNat) := if_neg (by omega)

theorem exec_wblock_fits {src : BlockSource} {n : BitVec 6} (h : n.toNat ≤ src.length) (s : State) :
    exec (.wblock src n) s = .next (doWblock src n.toNat s) := if_pos h

theorem exec_rblock_fits {buf : Buf} {n : BitVec 6} (h : n.toNat ≤ buf.length) (s : State) :
    exec (.rblock buf n) s = .next (doRblock buf n.toNat s) := if_pos h

/-- Settles O18: each of the two block operations past the end of its buffer. -/
theorem blockOverrunStops : Obligations.BlockOverrunStops :=
  ⟨fun s _ _ h => exec_wblock_overrun h s, fun s _ _ h => exec_rblock_overrun h s⟩

/-! #### A well-formed operation does not stop -/

theorem wblock_wf_fits {src : BlockSource} {n : BitVec 6} (h : (Instr.wblock src n).wf = true) :
    n.toNat ≤ src.length := by
  cases src with
  | buf b => exact of_decide_eq_true h
  | const bytes => exact (of_decide_eq_true h).ge

theorem exec_of_wf {i : Instr} (h : i.wf = true) (s : State) : ∃ t, exec i s = .next t := by
  cases i with
  | wblock src n => exact ⟨_, exec_wblock_fits (wblock_wf_fits h) s⟩
  | rblock buf n => exact ⟨_, exec_rblock_fits (of_decide_eq_true h) s⟩
  | _ => exact ⟨_, rfl⟩

/-! #### What the decoder reads is well formed -/

/-- The decoder has read a well-formed instruction, or has rejected by name. -/
def ReadsWf : Except Reject (Instr × List Byte) → Prop
  | .ok (i, _) => i.wf = true
  | .error _ => True

theorem ofNat_count_toNat {b : Byte} (h : ¬ 64 ≤ b.toNat) : (BitVec.ofNat 6 b.toNat).toNat = b.toNat := by
  rw [BitVec.toNat_ofNat]
  omega

theorem decodeWbit_readsWf (bytes : List Byte) : ReadsWf (decodeWbit bytes) := by
  unfold decodeWbit
  split
  · trivial
  · split <;> trivial

theorem decodeDelay_readsWf (bytes : List Byte) : ReadsWf (decodeDelay bytes) := by
  unfold decodeDelay
  split
  · split <;> trivial
  · trivial

theorem decodeWbyte_readsWf (bytes : List Byte) : ReadsWf (decodeWbyte bytes) := by
  cases bytes <;> trivial

theorem decodeCrc16Check_readsWf (bytes : List Byte) : ReadsWf (decodeCrc16Check bytes) := by
  unfold decodeCrc16Check
  split
  · trivial
  · split <;> trivial

/-- A constant is cut to its count, a buffer's count is checked (R154). -/
theorem decodeWblock_readsWf (bytes : List Byte) : ReadsWf (decodeWblock bytes) := by
  unfold decodeWblock
  split
  next src count rest =>
    split
    next => trivial
    next hcount =>
      split
      next =>
        split
        next => trivial
        next hlen =>
          refine decide_eq_true ?_
          rw [ofNat_count_toNat hcount, List.length_take]
          omega
      next =>
        split
        next => trivial
        next =>
          split
          next hfit => exact decide_eq_true (by rwa [ofNat_count_toNat hcount])
          next => trivial
  next => trivial

/-- The count is checked against the buffer (R153). -/
theorem decodeRblock_readsWf (bytes : List Byte) : ReadsWf (decodeRblock bytes) := by
  unfold decodeRblock
  split
  next buf count rest =>
    split
    next => trivial
    next hcount =>
      split
      next => trivial
      next =>
        split
        next hfit => exact decide_eq_true (by rwa [ofNat_count_toNat hcount])
        next => trivial
  next => trivial

theorem decodeUop_readsWf (bytes : List Byte) : ReadsWf (decodeUop bytes) := by
  unfold decodeUop
  split
  · trivial
  · next rest =>
    split
    case h_2 => exact decodeWbit_readsWf rest
    case h_4 => exact decodeDelay_readsWf rest
    case h_5 => exact decodeWbyte_readsWf rest
    case h_7 => exact decodeWblock_readsWf rest
    case h_8 => exact decodeRblock_readsWf rest
    case h_10 => exact decodeCrc16Check_readsWf rest
    all_goals trivial

theorem decodeComposite_readsWf (bytes : List Byte) : ReadsWf (decodeComposite bytes) := by
  unfold decodeComposite
  split
  · trivial
  · split
    case h_1 => split <;> trivial
    case h_2 => split <;> trivial
    all_goals trivial

theorem wf_of_readsWf {r : Except Reject (Instr × List Byte)} {i : Instr} (hr : ReadsWf r)
    (h : r.map Prod.fst = .ok i) : i.wf = true := by
  cases r with
  | ok read => cases h; exact hr
  | error reason => cases h

theorem decodeHc_wf (cmd : BitVec 2) : (decodeHc cmd).wf = true := by
  unfold decodeHc
  split <;> rfl

theorem decodeSl_wf {w : Wave} {i : Instr} (h : decodeSl w = .ok i) : i.wf = true := by
  unfold decodeSl at h
  split_ifs at h <;> cases h <;> rfl

theorem decodeWire_wf {bytes : List Byte} {i : Instr} (h : decodeWire bytes = .ok i) : i.wf = true := by
  unfold decodeWire at h
  split_ifs at h <;> cases h <;> rfl

theorem decode_wf {c : Code} {i : Instr} (h : decode c = .ok i) : i.wf = true := by
  cases c with
  | hc cmd => cases h; exact decodeHc_wf cmd
  | sl wave => exact decodeSl_wf h
  | wire bytes => exact decodeWire_wf h
  | uop bytes => exact wf_of_readsWf (decodeUop_readsWf bytes) h
  | composite bytes => exact wf_of_readsWf (decodeComposite_readsWf bytes) h

/-! #### What `SEQ` names is well formed, and a legal position names it -/

/-- The counts in the sequences of R193 are those of their buffers. -/
theorem phaseProgram_wf (p : Config.Params) (phase : Phase) : ∀ i ∈ phaseProgram p phase, i.wf = true := by
  cases phase with
  | authPage =>
    have hpage : (Instr.rblock .rbuf p.nPageRead.count).wf = true := decide_eq_true (pageRead_count_le p.nPageRead)
    simp only [phaseProgram, List.forall_mem_cons, hpage, List.not_mem_nil, false_implies, implies_true]
    decide
  | idle | idPhase | derive | authChallenge | authVerify | soft | finish => exact fun _ => List.all_eq_true.mp rfl _

theorem seqInstr_wf {s : State} {i : Instr} (h : seqInstr s = some i) : i.wf = true :=
  phaseProgram_wf _ _ i (List.mem_of_getElem? h)

/-- A phase with operations of its own stands at a listed step (R193). -/
theorem step_lt_of_legalPosition {s : State} (h : legalPosition s = true)
    (hops : phaseProgram s.cfg s.seq.phase ≠ []) :
    s.seq.step.toNat < (phaseProgram s.cfg s.seq.phase).length := by
  cases hp : s.seq.phase with
  | idPhase | derive | authChallenge | authPage | soft => simp_all [legalPosition, phaseProgram]
  | idle | authVerify | finish => exact absurd (by rw [hp]; rfl) hops

theorem sequencerStep_of_ops {s : State} (h : legalPosition s = true) (hops : phaseProgram s.cfg s.seq.phase ≠ []) :
    ∃ t, sequencerStep s = .next t := by
  have hi : seqInstr s = some _ := List.getElem?_eq_getElem (step_lt_of_legalPosition h hops)
  obtain ⟨t, ht⟩ := exec_of_wf (seqInstr_wf hi) s
  exact ⟨afterOperation t, by rw [sequencerStep_named hi, execThen_next _ ht]⟩

/-! #### The step -/

theorem sequencerStep_of_legalPosition {s : State} (h : legalPosition s = true) : ∃ t, sequencerStep s = .next t := by
  cases hp : s.seq.phase with
  | idle => exact ⟨s, sequencerStep_idle hp⟩
  | authVerify => exact ⟨verdict s, by simp only [sequencerStep, hp]⟩
  | finish st c out => exact ⟨finish st c out s, sequencerStep_finish hp⟩
  | idPhase | derive | authChallenge | authPage | soft =>
    exact sequencerStep_of_ops h (by rw [hp]; exact List.cons_ne_nil _ _)

theorem requestStep_of_legalPosition (cmd : BitVec 2) {s : State} (h : legalPosition s = true) :
    ∃ t, requestStep cmd s = .next t := by
  unfold requestStep
  split
  · exact ⟨accept cmd s, rfl⟩
  · exact sequencerStep_of_legalPosition h

/-- `rst` takes the block out of any state (R300). -/
theorem resetStep_next (us : Nat) (s : State) : ∃ t, resetStep us s = .next t := by
  unfold resetStep
  split <;> exact ⟨_, rfl⟩

theorem presentedStep_cases (c : Code) (s : State) :
    (∃ t, presentedStep c s = .next t) ∨ ∃ r, presentedStep c s = .refused (.undecodable r) := by
  unfold presentedStep
  split
  next i hi => exact .inl (exec_of_wf (decode_wf hi) s)
  next r _ => exact .inr ⟨r, rfl⟩

theorem popInput_legalPosition {s : State} (h : legalPosition s = true) : legalPosition (popInput s) = true := h

/-- Settles O58, input by input: only a presented code can stop the step, and it stops it by refusal. -/
theorem noFaultIsReached : Obligations.NoFaultIsReached := by
  intro s hs
  have hpos := hs.1
  have hpop := popInput_legalPosition hpos
  unfold step
  split
  next => exact .inl (sequencerStep_of_legalPosition hpos)
  next => exact .inl (sequencerStep_of_legalPosition hpop)
  next cmd _ _ => exact .inl (requestStep_of_legalPosition cmd hpop)
  next us _ _ => exact .inl (resetStep_next us _)
  next c rest hinput =>
    obtain hnext | ⟨r, hr⟩ := presentedStep_cases c (popInput s)
    · exact .inl hnext
    · exact .inr ⟨c, rest, r, hinput, hr⟩

end Sys2Proof.Proofs
end

/-! ### Codes and operations (R91 to R97, R107, R109)

The decoder inverts the encoder on every well-formed operation, and the encoder the decoder on every code that decodes:
each operand decoder has read exactly the bytes that the encoder writes. -/

section
namespace Sys2Proof.Proofs

open Sys2Proof.Machine Sys2Proof.Safety

/-- Settles O2: the operands of five rows are checked by the decoder and pass; every other code is a label, a symbol or
bytes that no check reads. -/
theorem decodeOfEncodeIsTheOperation : Obligations.DecodeOfEncodeIsTheOperation := by
  intro i
  cases i with
  | wbit b => exact Laws.RoundTrip.wbit b
  | delay n => exact Laws.RoundTrip.delay n
  | wblock src n => exact Laws.RoundTrip.wblock src n
  | rblock buf n => exact Laws.RoundTrip.rblock buf n
  | crc16Check frame => exact Laws.RoundTrip.crc16Check frame
  | _ => exact fun _ => rfl

/-- Settles O1: the codes of the tables, each of which the decoder reads by evaluation. -/
theorem decodeReadsTheTablesCodes : Obligations.DecodeReadsTheTablesCodes :=
  ⟨rfl, rfl, rfl, rfl, rfl, rfl, rfl, rfl, rfl, rfl, rfl, rfl, rfl, rfl, rfl, rfl, rfl, rfl, rfl, rfl, rfl⟩

/-! #### The operand bytes are those the encoder writes -/

theorem byte_eq_of_toNat {b : Byte} {n : Nat} (h : b.toNat = n) : b = BitVec.ofNat 8 n := (BitVec.toNat_eq_nat.mp h).2

theorem codeOfBuf_bufOfCode {b : Byte} {buf : Buf} (h : bufOfCode b = some buf) : codeOfBuf buf = b := by
  unfold bufOfCode at h
  split at h <;> cases h
  all_goals next hb => exact (byte_eq_of_toNat hb).symm

theorem codeOfFrame_frameOfCode {b : Byte} {f : Frame} (h : frameOfCode b = some f) : codeOfFrame f = b := by
  unfold frameOfCode at h
  split at h <;> cases h
  all_goals next hb => exact (byte_eq_of_toNat hb).symm

theorem countByte_ofNat {count : Byte} (h : ¬ 64 ≤ count.toNat) : countByte (BitVec.ofNat 6 count.toNat) = count := by
  rw [countByte, ofNat_count_toNat h, BitVec.ofNat_toNat, BitVec.setWidth_eq]

theorem ofNat_eq_byte {b : Byte} {n : Nat} (h : n % 256 = b.toNat) : BitVec.ofNat 8 n = b :=
  BitVec.eq_of_toNat_eq ((BitVec.toNat_ofNat n 8).trans h)

theorem delayBytes_ofNat (b0 b1 b2 : Byte) (h : b2.toNat ≤ 1) :
    delayBytes (BitVec.ofNat 17 (b0.toNat + 256 * b1.toNat + 65536 * b2.toNat)) = [b0, b1, b2] := by
  have hvalue : (BitVec.ofNat 17 (b0.toNat + 256 * b1.toNat + 65536 * b2.toNat)).toNat =
      b0.toNat + 256 * b1.toNat + 65536 * b2.toNat := by
    rw [BitVec.toNat_ofNat]
    omega
  rw [delayBytes, hvalue, ofNat_eq_byte (b := b0) (by omega), ofNat_eq_byte (b := b1) (by omega),
    ofNat_eq_byte (b := b2) (by omega)]

/-! #### What a decoder reads is the code of what it answers -/

/-- The decoder has read, at the front of these bytes of a channel, the code of the operation it answers, and hands back
the rest; or it has rejected by name. -/
def ReadsCode (channel : List Byte → Code) (bytes : List Byte) : Except Reject (Instr × List Byte) → Prop
  | .ok (i, rest) => ∃ word, encode i = channel word ∧ bytes = word ++ rest
  | .error _ => True

theorem decodeWbit_readsCode (bytes : List Byte) : ReadsCode .uop (0x1 :: bytes) (decodeWbit bytes) := by
  unfold decodeWbit
  split
  · trivial
  · split
    next hb => exact ⟨_, rfl, by rw [byte_eq_of_toNat hb]; rfl⟩
    next hb => exact ⟨_, rfl, by rw [byte_eq_of_toNat hb]; rfl⟩
    next => trivial

theorem decodeDelay_readsCode (bytes : List Byte) : ReadsCode .uop (0x3 :: bytes) (decodeDelay bytes) := by
  unfold decodeDelay
  split
  next b0 b1 b2 rest =>
    split
    next h => exact ⟨_, rfl, by rw [delayBytes_ofNat b0 b1 b2 h]; rfl⟩
    next => trivial
  next => trivial

theorem decodeWbyte_readsCode (bytes : List Byte) : ReadsCode .uop (0x4 :: bytes) (decodeWbyte bytes) := by
  cases bytes with
  | nil => trivial
  | cons v rest => exact ⟨[0x4, v], rfl, rfl⟩

/-- A constant is taken from the bytes behind its count (R154). -/
theorem decodeWblock_readsCode (bytes : List Byte) : ReadsCode .uop (0x6 :: bytes) (decodeWblock bytes) := by
  unfold decodeWblock
  split
  next src count rest =>
    split
    next => trivial
    next hcount =>
      have hbyte := countByte_ofNat hcount
      split
      next hsrc =>
        split
        next => trivial
        next =>
          refine ⟨_, rfl, ?_⟩
          rw [hsrc, hbyte, List.cons_append, List.cons_append, List.cons_append, List.take_append_drop]
      next =>
        split
        next => trivial
        next b hb =>
          split
          next => exact ⟨_, rfl, by rw [codeOfBuf_bufOfCode hb, hbyte]; rfl⟩
          next => trivial
  next => trivial

theorem decodeRblock_readsCode (bytes : List Byte) : ReadsCode .uop (0x7 :: bytes) (decodeRblock bytes) := by
  unfold decodeRblock
  split
  next buf count rest =>
    split
    next => trivial
    next hcount =>
      split
      next => trivial
      next b hb =>
        split
        next => exact ⟨_, rfl, by rw [codeOfBuf_bufOfCode hb, countByte_ofNat hcount]; rfl⟩
        next => trivial
  next => trivial

theorem decodeCrc16Check_readsCode (bytes : List Byte) : ReadsCode .uop (0x9 :: bytes) (decodeCrc16Check bytes) := by
  unfold decodeCrc16Check
  split
  · trivial
  · split
    next => trivial
    next f hf => exact ⟨_, rfl, by simp [codeOfFrame_frameOfCode hf]⟩

theorem readsCode_of_label {channel : List Byte → Code} {label : Byte} {n : Nat} {rest : List Byte}
    {r : Except Reject (Instr × List Byte)} (h : label.toNat = n)
    (hr : ReadsCode channel (BitVec.ofNat 8 n :: rest) r) : ReadsCode channel (label :: rest) r :=
  byte_eq_of_toNat h ▸ hr

theorem decodeUop_readsCode (bytes : List Byte) : ReadsCode .uop bytes (decodeUop bytes) := by
  unfold decodeUop
  split
  · trivial
  · next rest =>
    split
    case h_2 h => exact readsCode_of_label h (decodeWbit_readsCode rest)
    case h_4 h => exact readsCode_of_label h (decodeDelay_readsCode rest)
    case h_5 h => exact readsCode_of_label h (decodeWbyte_readsCode rest)
    case h_7 h => exact readsCode_of_label h (decodeWblock_readsCode rest)
    case h_8 h => exact readsCode_of_label h (decodeRblock_readsCode rest)
    case h_10 h => exact readsCode_of_label h (decodeCrc16Check_readsCode rest)
    case h_17 => trivial
    all_goals next h => exact readsCode_of_label h ⟨_, rfl, rfl⟩

theorem decodeComposite_readsCode (bytes : List Byte) : ReadsCode .composite bytes (decodeComposite bytes) := by
  unfold decodeComposite
  split
  · trivial
  · split
    case h_1 h | h_2 h =>
      split
      · trivial
      · exact readsCode_of_label h ⟨_, rfl, rfl⟩
    case h_6 => trivial
    all_goals next h => exact readsCode_of_label h ⟨_, rfl, rfl⟩

theorem encode_decodeHc (cmd : BitVec 2) : encode (decodeHc cmd) = .hc cmd := by
  revert cmd
  decide

theorem encode_of_decodeSl {w : Wave} {i : Instr} (h : decodeSl w = .ok i) : encode i = .sl w := by
  unfold decodeSl at h
  split_ifs at h with hw hw hw hw <;> cases h <;> rw [hw] <;> rfl

theorem encode_of_decodeWire {bytes : List Byte} {i : Instr} (h : decodeWire bytes = .ok i) :
    encode i = .wire bytes := by
  unfold decodeWire at h
  split_ifs at h with hb hb hb hb hb <;> cases h <;> rw [hb] <;> rfl

/-- Settles O3: channel by channel, and `decode_wf` for what decodes. -/
theorem encodeOfDecodeIsTheCode : Obligations.EncodeOfDecodeIsTheCode := by
  refine ⟨fun cmd i h => ?_, fun w i h => encode_of_decodeSl h, fun bytes i h => encode_of_decodeWire h,
    fun bytes i rest h => ?_, fun bytes i rest h => ?_, fun c i h => decode_wf h⟩
  · cases h
    exact encode_decodeHc cmd
  · have hread := decodeUop_readsCode bytes
    rwa [h] at hread
  · have hread := decodeComposite_readsCode bytes
    rwa [h] at hread

end Sys2Proof.Proofs
end

/-! ### Operations presented by their code, and requests without effect (R108, R109, R251) -/

section
namespace Sys2Proof.Proofs

open Sys2Proof.Machine Sys2Proof.Safety

theorem step_of_op {s : State} {c : Code} {rest : List Input} (h : s.env.inputs = .op c :: rest) :
    step s = presentedStep c (popInput s) := by
  simp only [step, h]

theorem presentedStep_of_decode {c : Code} {i : Instr} (h : decode c = .ok i) (s : State) :
    presentedStep c s = exec i s := by
  simp only [presentedStep, h]

theorem presentedStep_of_reject {c : Code} {r : Reject} (h : decode c = .error r) (s : State) :
    presentedStep c s = .refused (.undecodable r) := by
  simp only [presentedStep, h]

/-- An input used up leaves the inputs behind it. -/
theorem popInput_of_cons {s : State} {x : Input} {rest : List Input} (h : s.env.inputs = x :: rest) :
    popInput s = { s with env := { s.env with inputs := rest } } := by
  rw [popInput, h, List.tail_cons]

theorem decode_of_decodeTableWord {nbits w : Nat} {i : Instr} (h : decodeTableWord nbits w = some i) :
    decode (codeOfTableWord nbits w) = .ok i := by
  unfold decodeTableWord at h
  split at h
  next j hj => cases h; exact hj
  next => cases h

/-- Settles O4: the step with a code presented is `presentedStep`, which runs what the code decodes to. -/
theorem stepRunsThePresentedOperation : Obligations.StepRunsThePresentedOperation := by
  refine ⟨fun s c rest i hinput hi => ?_, fun s c rest r hinput hr => ?_, fun s nbits w i hi => ?_⟩
  · rw [step_of_op hinput, presentedStep_of_decode hi, popInput_of_cons hinput]
  · rw [step_of_op hinput, presentedStep_of_reject hr]
  · exact presentedStep_of_decode (decode_of_decodeTableWord hi) s

theorem whenIdle_of_busy (run : State → State) {s : State} (h : s.flags.busy = true) : whenIdle run s = s := if_pos h

/-- Settles O7: a request that is not accepted is an input without effect, and a busy block runs no command. -/
theorem requestsThatHaveNoEffect : Obligations.RequestsThatHaveNoEffect := by
  refine ⟨fun s => rfl, fun s rest hinput hidle => ?_,
    fun s cmd rest hinput hbusy => step_of_request_ignored hinput (.inl hbusy), fun s hbusy i hi => ?_⟩
  · have hign : inputIgnored s = true := by simp [inputIgnored, hinput]
    rw [step_of_inputIgnored hign, sequencerStep_idle (s := popInput s) hidle, popInput_of_cons hinput]
  · simp only [List.mem_cons, List.not_mem_nil, or_false] at hi
    obtain rfl | rfl | rfl := hi
    · exact congrArg Host.Outcome.next (whenIdle_of_busy runGetIdentifier hbusy)
    · exact congrArg Host.Outcome.next (whenIdle_of_busy runAuthenticate hbusy)
    · exact congrArg Host.Outcome.next (whenIdle_of_busy runSoftReset hbusy)

/-! ### A byte written (R93, R94, R152) -/

/-- Settles O14: `WBYTE` in closed form, and the slots of its byte. -/
theorem wbyteSendsTheLowBitFirst : Obligations.WbyteSendsTheLowBitFirst := by
  refine fun s => ⟨fun v => ⟨doWbyte v s, rfl, ?_⟩, rfl, rfl⟩
  rw [doWbyte_eq]
  exact ⟨rfl, lineAfterByte_after s.cfg.tGap v s.line⟩

end Sys2Proof.Proofs
end

/-! ### The transactions of a present peripheral, whatever their checks say (R189 to R192) -/

section
namespace Sys2Proof.Proofs

open Sys2Proof.Machine Sys2Proof.Safety

/-- Settles O33: the identifier read in closed form. -/
theorem readIdentifierChecksEightBytes : Obligations.ReadIdentifierChecksEightBytes := by
  intro s hpresent
  refine ⟨identifierRead s, congrArg Host.Outcome.next (doReadIdentifier_present hpresent),
    identifierLine_after s.cfg.tGap s.line, answeredVector_toList s.line 1 8, ?_⟩
  unfold identifierRead
  rfl

/-! #### `WRITE_CHALLENGE` (R190) -/

/-- All 12 bytes agree. -/
theorem echoOkOf_iff (m : Session) : echoOkOf m = true ↔ m.echo = m.chal := by
  refine ⟨fun h => ?_, echoOkOf_of_eq⟩
  refine Vector.ext fun k hk => ?_
  have hbyte : byteAt m.echo k = byteAt m.chal k := by
    simp only [echoOkOf, List.all_eq_true, List.mem_range, decide_eq_true_eq] at h
    exact h k hk
  rwa [byteAt_lt m.echo hk, byteAt_lt m.chal hk] at hbyte

/-- Whether the echo answered is the challenge sent. -/
def echoSame (s : State) : Bool := decide (answeredBytes s.line 1 12 = s.session.chal.toList)

/-- The echo compared. -/
def challengeCompared (s : State) : State :=
  { challengeExchanged s with
    flags := { s.flags with present := true, echoOk := echoSame s }
    res := if echoSame s then .ok else .failed (.integrity .echoMismatch) }

theorem checkEcho_challengeExchanged (s : State) : checkEcho (challengeExchanged s) = challengeCompared s := by
  have hsame : echoOkOf (challengeExchanged s).session = echoSame s := by
    rw [Bool.eq_iff_iff, echoOkOf_iff, echoSame, decide_eq_true_iff, ← answeredVector_toList, Vector.toList_inj]
    rfl
  rw [checkEcho, require_eq, doEchoCheck, hsame]
  rfl

theorem doWriteChallenge_present {s : State} (h : answer s.line 0 = false) :
    doWriteChallenge s = challengeCompared s := by
  rw [doWriteChallenge, doSelectSkip, select_present _ h, thenOk_ok (s := selected _ s) _ rfl,
    exchangeChallenge_selected, thenOk_ok (s := challengeExchanged s) _ rfl, checkEcho_challengeExchanged]

/-- Settles O34: the exchange in closed form, compared byte by byte after all of it is read. -/
theorem writeChallengeComparesTheEcho : Obligations.WriteChallengeComparesTheEcho := by
  intro s hpresent
  refine ⟨challengeCompared s, congrArg Host.Outcome.next (doWriteChallenge_present hpresent),
    challengeLine_after s.cfg.tGap s.session.chal s.line, answeredVector_toList s.line 1 12, ?_⟩
  unfold challengeCompared challengeExchanged
  rfl

/-! #### `READ_AUTH_PAGE` (R191) -/

/-- A frame checked, its CRC16 right or wrong (R173). -/
def frameJudged (frame : Frame) (cause : Cause) (s : State) : State :=
  { s with
    crc16r := crc16Bits 0 (frameBytes s frame)
    flags := { s.flags with crc16Ok := decide (crc16Bits 0 (frameBytes s frame) = Config.crc16Residual) }
    res := if crc16Bits 0 (frameBytes s frame) = Config.crc16Residual then s.res else .failed (.integrity cause) }

theorem checkFrame_eq (frame : Frame) (cause : Cause) (s : State) :
    require (fun t => t.flags.crc16Ok) (.integrity cause) (doCrc16Check frame s) = frameJudged frame cause s := by
  rw [require_eq, doCrc16Check_eq, crc16Of_eq]
  simp only [crc16OkOf, decide_eq_true_eq, frameJudged]

/-- The CRC16 of the page frame answered. -/
def pageCrc (s : State) : Half :=
  crc16Bits 0 (Config.cmdReadAuthPage ++ answeredBytes s.line 1 s.cfg.nPageRead.count.toNat)

/-- The page frame read and checked. -/
def pageJudged (s : State) : State :=
  { pageRead s.cfg.nPageRead.count.toNat s with
    crc16r := pageCrc s
    flags := { s.flags with present := true, crc16Ok := decide (pageCrc s = Config.crc16Residual) }
    res := if pageCrc s = Config.crc16Residual then .ok else .failed (.integrity .crc16Page) }

theorem checkPage_pageRead (s : State) : checkPage (pageRead s.cfg.nPageRead.count.toNat s) = pageJudged s := by
  rw [checkPage, checkFrame_eq, frameJudged, pageRead_frame, ← pageCrc, pageJudged]
  simp only [pageRead]

theorem doReadAuthPage_present {s : State} (h : answer s.line 0 = false) :
    doReadAuthPage s = thenOk checkMac (thenOk readMac (pageJudged s)) := by
  rw [doReadAuthPage, doSelectSkip, select_present _ h, thenOk_ok (s := selected _ s) _ rfl, readPage_selected,
    thenOk_ok (s := pageRead _ s) _ rfl, checkPage_pageRead]

/-- A wrong page frame ends the transaction. -/
theorem doReadAuthPage_badPage {s : State} (h : answer s.line 0 = false) (hpage : pageCrc s ≠ Config.crc16Residual) :
    doReadAuthPage s = pageJudged s := by
  have hres : (pageJudged s).res = .failed (.integrity .crc16Page) := if_neg hpage
  rw [doReadAuthPage_present h, thenOk_failed _ hres, thenOk_failed _ hres]

/-- The CRC16 of the MAC frame answered behind the page frame. -/
def macCrc (s : State) : Half := crc16Bits 0 (answeredBytes s.line (1 + 8 * s.cfg.nPageRead.count.toNat) 22)

/-- The MAC frame read behind the page frame, and checked. -/
def macFrameJudged (s : State) : State :=
  { s with
    line := macLine s.cfg.tGap (pageLine s.cfg.tGap s.cfg.nPageRead.count.toNat s.line)
    shreg := answeredByte s.line (169 + 8 * s.cfg.nPageRead.count.toNat)
    ret := answeredByte s.line (169 + 8 * s.cfg.nPageRead.count.toNat)
    seq := { s.seq with byteCnt := 21, bitCnt := 7 }
    session := { s.session with
      rbuf := filled s.session.rbuf (pageSentLine s.cfg.tGap s.line) s.cfg.nPageRead.count.toNat
      mbuf := answeredVector s.line (1 + 8 * s.cfg.nPageRead.count.toNat) 22 }
    crc16r := macCrc s
    flags := { s.flags with present := true, crc16Ok := decide (macCrc s = Config.crc16Residual) }
    res := if macCrc s = Config.crc16Residual then .ok else .failed (.integrity .crc16Mac) }

theorem checkMac_macRead {s : State} (hres : (pageJudged s).res = .ok) :
    checkMac (macRead (pageJudged s)) = macFrameJudged s := by
  have hread := pageLine_after s.cfg.tGap s.cfg.nPageRead.count.toNat s.line
  have hlast := lineAfter_answeredByte hread 168
  rw [show 1 + 8 * s.cfg.nPageRead.count.toNat + 168 = 169 + 8 * s.cfg.nPageRead.count.toNat by omega] at hlast
  have hframe : frameBytes (macRead (pageJudged s)) .mac =
      answeredBytes s.line (1 + 8 * s.cfg.nPageRead.count.toNat) 22 :=
    (answeredVector_toList _ _ _).trans (lineAfter_answeredBytes hread 0 22)
  rw [checkMac, checkFrame_eq, frameJudged, hframe, ← macCrc, macFrameJudged, ← hlast,
    show (macRead (pageJudged s)).res = .ok from hres]
  simp only [macRead, pageJudged, pageRead, lineAfter_answeredVector hread]
  rfl

theorem doReadAuthPage_goodPage {s : State} (h : answer s.line 0 = false) (hpage : pageCrc s = Config.crc16Residual) :
    doReadAuthPage s = macFrameJudged s := by
  have hres : (pageJudged s).res = .ok := if_pos hpage
  rw [doReadAuthPage_present h, thenOk_ok _ hres, readMac_eq, thenOk_ok (s := macRead (pageJudged s)) _ hres,
    checkMac_macRead hres]

/-- Both frames on the line (R191). -/
theorem bothFrames_after (g : Config.Gap) (n : Nat) (l : Line) :
    LineAfter g l (macLine g (pageLine g n l)) (pageOps l 0 n ++ macOps l (1 + 8 * n)) (177 + 8 * n) := by
  have hread := pageLine_after g n l
  have h := lineAfter_append hread (macLine_after g _)
  rw [macOps, lineAfter_readOps hread, show 1 + 8 * n + 176 = 177 + 8 * n by omega] at h
  exact h

/-- The page read is the bytes answered, and where it is a byte short the last one is kept (R100). -/
theorem pageRead_toList (s : State) (n : Nat) (h : n ≤ 31) :
    (filled s.session.rbuf (pageSentLine s.cfg.tGap s.line) n).toList =
      answeredBytes s.line 1 n ++ s.session.rbuf.toList.drop n := by
  rw [filled_toList _ _ _ h, lineAfter_answeredBytes (pageSentLine_after s.cfg.tGap s.line)]

theorem pageRead_count_pred (n : Config.PageRead) : BitVec.ofNat 6 (n.count.toNat - 1) = n.count - 1 := by
  cases n <;> rfl

/-- Settles O35: the page frame in closed form, and behind a right one the MAC frame. -/
theorem readAuthPageChecksBothFrames : Obligations.ReadAuthPageChecksBothFrames := by
  intro s hpresent n page mac crc
  have hrbuf := pageRead_toList s n (pageRead_count_le s.cfg.nPageRead)
  have hcrc : crc = 0xB001 ↔ pageCrc s = Config.crc16Residual := Iff.rfl
  by_cases hpage : pageCrc s = Config.crc16Residual
  · refine ⟨macFrameJudged s, congrArg Host.Outcome.next (doReadAuthPage_goodPage hpresent hpage), hrbuf,
      fun hbad => absurd (hcrc.mpr hpage) hbad,
      fun _ => ⟨?_, answeredVector_toList _ _ _, ?_⟩⟩
    · simp only [macFrameJudged]
      exact bothFrames_after s.cfg.tGap n s.line
    · unfold macFrameJudged
      rfl
  · refine ⟨pageJudged s, congrArg Host.Outcome.next (doReadAuthPage_badPage hpresent hpage), hrbuf,
      fun _ => ⟨pageLine_after s.cfg.tGap n s.line, ?_⟩, fun hgood => absurd (hcrc.mp hgood) hpage⟩
    have hlast : 1 + 8 * (n - 1) = 8 * n - 7 := by
      have := pageRead_count_ne_zero s.cfg.nPageRead
      omega
    rw [pageJudged, if_neg hpage, decide_eq_false hpage, pageRead, hlast, pageRead_count_pred]
    rfl

/-! #### `SOFT_RESET_TXN` (R192) -/

/-- The answer read is the front of `MBUF`. -/
theorem softAnswered_mbuf (s : State) :
    (softAnswered s).session.mbuf.toList = answeredBytes s.line 1 2 ++ s.session.mbuf.toList.drop 2 := by
  have h := filled_toList s.session.mbuf (softSentLine s.cfg.tGap s.line) 2 (by decide)
  rwa [lineAfter_answeredBytes (softSentLine_after s.cfg.tGap s.line)] at h

/-- Settles O36: the answer in closed form; FB 6E alone makes its frame valid, and the settle delay follows a valid
frame. -/
theorem softResetTakesOneAnswer : Obligations.SoftResetTakesOneAnswer := by
  intro s hpresent bytes taken
  have hmbuf := softAnswered_mbuf s
  have hrun := doSoftResetTxn_present hpresent
  by_cases hbytes : bytes = [0xFB, 0x6E]
  · have hcrc := (softCrc_residual_iff s.line).mpr hbytes
    have htaken : taken = true := decide_eq_true hbytes
    rw [thenOk_ok _ (by rw [softAnswered]; exact if_pos hcrc)] at hrun
    refine ⟨settle (softAnswered s), congrArg Host.Outcome.next hrun, ?_, hmbuf, ?_⟩
    · rw [htaken]
      exact lineAfter_append (softLine_after s.cfg.tGap s.line) (delayLine_after _ _ _)
    · rw [htaken, softAnswered, if_pos hcrc, decide_eq_true hcrc]
      simp only [settle, doDelay, softExchanged]
      rfl
  · have hcrc := mt (softCrc_residual_iff s.line).mp hbytes
    have htaken : taken = false := decide_eq_false hbytes
    rw [thenOk_failed _ (e := .integrity .crc16Soft) (by rw [softAnswered]; exact if_neg hcrc)] at hrun
    refine ⟨softAnswered s, congrArg Host.Outcome.next hrun, ?_, hmbuf, ?_⟩
    · rw [htaken, if_neg Bool.false_ne_true, List.append_nil]
      exact softLine_after s.cfg.tGap s.line
    · rw [htaken, softAnswered, if_neg hcrc, decide_eq_false hcrc]
      simp only [softExchanged]
      rfl

end Sys2Proof.Proofs
end

/-! ### The secret and the MAC beside their message blocks (R111, R112, R217 to R222) -/

section
namespace Sys2Proof.Proofs

open Sys2Proof.Machine Sys2Proof.Safety

/-! #### The hash of a block -/

/-- The core's registers after `SHA1` on this block (R215). -/
@[irreducible] def hashed (msg : Vector Byte 64) (s : State) : ShaRegs := (doSha1 { s with sha := { s.sha with msg := msg } }).sha

theorem hashed_msg (msg : Vector Byte 64) (s : State) : (hashed msg s).msg = msg := by
  simp only [hashed, doSha1]

/-- `SHA1` does not read the core's registers but for the block. -/
theorem hashed_congr (msg : Vector Byte 64) {s t : State} (h : t.cfg = s.cfg) : hashed msg t = hashed msg s := by
  simp only [hashed, doSha1, h]

/-- The registers are those `SHA1` gives on the block they hold. -/
theorem exec_sha1_hashed (msg : Vector Byte 64) (s : State) :
    ∃ u, exec .sha1 { s with sha := { s.sha with msg := (hashed msg s).msg } } = .next u ∧ hashed msg s = u.sha := by
  rw [hashed_msg]
  exact ⟨_, rfl, by rw [hashed]⟩

/-- `DERIVE_SECRET` (R217). -/
theorem doDeriveSecret_hashed (s : State) :
    doDeriveSecret s =
      { s with
        sha := hashed (secretBlock s.cfg.secretTemplate s.cfg.secretIdOffset s.session.ident) s
        session := { s.session with
          secret := extractSecret s.cfg.secretExtract
            (hashed (secretBlock s.cfg.secretTemplate s.cfg.secretIdOffset s.session.ident) s).h } } := by
  simp only [doDeriveSecret, hashed, doSha1]

/-- `COMPUTE_MAC` (R220). -/
theorem doComputeMac_hashed (s : State) :
    doComputeMac s =
      { s with
        sha := hashed (macBlock s.cfg.macLayout s.session) s
        session := { s.session with mach := macBytes (hashed (macBlock s.cfg.macLayout s.session) s).h } } := by
  simp only [doComputeMac, hashed, doSha1]

/-! #### The bytes of the hash words (R219, R222) -/

/-- A byte of a half is that byte of the word. -/
theorem extractByte_half (w : Word) (start j : Nat) (h : j + 8 ≤ 16) :
    (w.extractLsb' start 16).extractLsb' j 8 = w.extractLsb' (start + j) 8 := by
  refine BitVec.eq_of_getLsbD_eq fun i hi => ?_
  have hin : j + i < 16 := by omega
  simp [hin, Nat.add_assoc]

/-- The order by halves is the order of the bytes. -/
theorem halvesStream_eq (w : Word) : halvesStream w = [wordByte w 0, wordByte w 1, wordByte w 2, wordByte w 3] := by
  rw [halvesStream, extractByte_half w 0 0 (by decide), extractByte_half w 0 8 (by decide),
    extractByte_half w 16 0 (by decide), extractByte_half w 16 8 (by decide)]
  rfl

theorem hashStream_eq (h : Vector Word 5) : hashStream h = [h[4], h[3], h[2], h[1], h[0]].flatMap halvesStream := by
  have hwords : h.toList = [h[0], h[1], h[2], h[3], h[4]] := by
    refine List.ext_getElem (by simp) fun k hk _ => ?_
    have hk5 : k < 5 := by simpa using hk
    interval_cases k <;> simp
  rw [hashStream, hwords]
  rfl

theorem macBytes_byte (h : Vector Word 5) {k j : Nat} (hk : k < 5) (hj : j < 4) :
    byteAt (macBytes h) (4 * k + j) = wordByte h[4 - k] j := by
  have hword : (4 * k + j) / 4 = k := by omega
  have hbyte : (4 * k + j) % 4 = j := by omega
  rw [byteAt_lt _ (by omega), macBytes, Vector.getElem_ofFn, macByte, hword, hbyte]
  simp [show 4 - k < 5 by omega]

/-- The stream is the words in reverse order, each low byte first. -/
theorem hashStream_byte (h : Vector Word 5) {k j : Nat} (hk : k < 5) (hj : j < 4) :
    (hashStream h).getD (4 * k + j) 0 = wordByte h[4 - k] j := by
  simp only [hashStream_eq, List.flatMap_cons, halvesStream_eq]
  interval_cases k <;> interval_cases j <;> rfl

theorem defaultPlaces_val : ∀ i : Fin 8, (#v[0, 1, 2, 3, 4, 5, 6, 7] : Vector (Fin 20) 8)[i].val = i.val := by
  decide

/-- The default extraction takes the first 8 bytes of the stream (R219). -/
theorem extractSecret_default_byte (h : Vector Word 5) {k j : Nat} (hk : k < 2) (hj : j < 4) :
    byteAt (extractSecret Config.secretExtractDefault h) (4 * k + j) = wordByte h[4 - k] j := by
  rw [byteAt_lt _ (by omega), ← hashStream_byte h (by omega) hj]
  simp only [extractSecret, Config.secretExtractDefault, Vector.getElem_map]
  exact congrArg (fun i => (hashStream h).getD i 0) (defaultPlaces_val ⟨4 * k + j, by omega⟩)

/-! #### The blocks (R111, R112) -/

/-- A slice of a buffer, byte by byte. -/
theorem slice_toList {n : Nat} (v : Vector Byte n) (start count : Nat) (h : start + count ≤ n) :
    (v.toList.drop start).take count = (List.range count).map fun i => byteAt v (start + i) := by
  refine List.ext_getElem (by simp; omega) fun i hi hi' => ?_
  have hin : start + i < n := by
    have : i < count := by simpa using hi'
    omega
  simp [byteAt_lt v hin]

/-- The block of the default layout, row by row the table of R112. -/
def defaultMacBlock (m : Session) : List Byte :=
  m.secret.toList.take 4 ++ m.rbuf.toList.take 28 ++ m.chal.toList.drop 8 ++ m.chal.toList.take 4 ++ [m.chal[7]] ++
    m.ident.toList.take 7 ++ m.secret.toList.drop 4 ++ (m.chal.toList.drop 4).take 3 ++
    [0x80, 0x00, 0x00, 0x00, 0x00, 0x00, 0x00, 0x01, 0xB8]

/-- The table and the layout name the same 64 bytes, each slice taken byte by byte. -/
theorem macBlock_default (m : Session) : (macBlock Config.macLayoutDefault m).toList = defaultMacBlock m := by
  have hblock : (macBlock Config.macLayoutDefault m).toList =
      List.ofFn fun i => macSourceByte m (Config.macSourceDefault i) := by
    rw [macBlock, Config.macLayoutDefault, Vector.toList_map, Vector.toList_ofFn, List.map_ofFn]
    rfl
  have hsecret := slice_toList m.secret 0 4 (by decide)
  have hsecret' := slice_toList m.secret 4 4 (by decide)
  have hpage := slice_toList m.rbuf 0 28 (by decide)
  have hchal := slice_toList m.chal 0 4 (by decide)
  have hchal4 := slice_toList m.chal 4 3 (by decide)
  have hchal8 := slice_toList m.chal 8 4 (by decide)
  have hident := slice_toList m.ident 0 7 (by decide)
  rw [List.take_of_length_le (by simp)] at hsecret' hchal8
  rw [List.drop_zero] at hsecret hpage hchal hident
  rw [hblock, defaultMacBlock, hsecret, hsecret', hpage, hchal, hchal4, hchal8, hident]
  rfl

theorem secretBlock_getElem (template : Vector Byte 64) (offset : Fin 57) (ident : Vector Byte 8) (k : Nat)
    (h : k < 64) : (secretBlock template offset ident)[k] =
      if hk : offset.val ≤ k ∧ k < offset.val + 8 then
        if k = offset.val then ident[0] &&& 0x3F else ident[k - offset.val]
      else template[k] := by
  rw [secretBlock, Vector.getElem_ofFn]
  change secretBlockByte template offset ident k = _
  unfold secretBlockByte
  split
  next hout => rw [dif_neg (by omega), byteAt_lt _ h]
  next hin =>
    rw [dif_pos (by omega)]
    split
    next => rw [byteAt_lt _ (by decide)]
    next => rw [byteAt_lt _ (by omega)]

theorem macBlock_getElem (layout : Vector Config.MacSource 64) (m : Session) (k : Nat) (h : k < 64) :
    (macBlock layout m)[k] = macSourceByte m layout[k] := by
  rw [macBlock, Vector.getElem_map]

/-! #### The obligations -/

/-- Settles O25: the secret computation in closed form, its block byte by byte. -/
theorem deriveSecretBuildsItsBlock : Obligations.DeriveSecretBuildsItsBlock := by
  refine fun s => ⟨doDeriveSecret s, rfl, ?_⟩
  rw [doDeriveSecret_hashed]
  refine ⟨fun k h => ?_, exec_sha1_hashed _ s, rfl, fun hdefault j hj => ?_⟩
  · simp only [hashed_msg]
    exact secretBlock_getElem _ _ _ k h
  · rw [hdefault]
    have hlast := extractSecret_default_byte
      (hashed (secretBlock s.cfg.secretTemplate s.cfg.secretIdOffset s.session.ident) s).h (k := 0) (by decide) hj
    rw [Nat.mul_zero, Nat.zero_add] at hlast
    exact ⟨hlast, extractSecret_default_byte _ (k := 1) (by decide) hj⟩

/-- `COMPUTE_MAC`: the block in `MSG`, what `SHA1` gives on it, `MACH` by R222 and nothing else. -/
theorem computeMac_takes_block (s : State) :
    (doComputeMac s).sha.msg = macBlock s.cfg.macLayout s.session ∧
    (∃ u, exec .sha1 { s with sha := { s.sha with msg := (doComputeMac s).sha.msg } } = .next u ∧
      (doComputeMac s).sha = u.sha) ∧
    (∀ (k j : Nat) (h : k < 5) (_ : j < 4),
      byteAt (doComputeMac s).session.mach (4 * k + j) = (doComputeMac s).sha.h[4 - k].extractLsb' (8 * j) 8) ∧
    doComputeMac s = { s with
      sha := (doComputeMac s).sha, session := { s.session with mach := (doComputeMac s).session.mach } } := by
  rw [doComputeMac_hashed]
  exact ⟨hashed_msg _ s, exec_sha1_hashed _ s, fun k j hk hj => macBytes_byte _ hk hj, rfl⟩

/-- Settles O27: the block of the default layout is the table's. -/
theorem computeMacBuildsItsBlock : Obligations.ComputeMacBuildsItsBlock := by
  intro s hdefault
  obtain ⟨hblock, hrest⟩ := computeMac_takes_block s
  refine ⟨doComputeMac s, rfl, ?_, hrest⟩
  rw [hblock, hdefault]
  exact macBlock_default s.session

/-- Settles O28: the block takes each byte from the source its entry names; with the default layout the slices of the
table determine it. -/
theorem macCoversWhatTheLayoutNames : Obligations.MacCoversWhatTheLayoutNames := by
  refine ⟨fun s => ?_, fun s t m hdefault hexec hsecret hchal hpage hident => ?_⟩
  · obtain ⟨hblock, hrest⟩ := computeMac_takes_block s
    refine ⟨doComputeMac s, rfl, fun k h => ?_, hrest⟩
    simp only [hblock]
    rw [macBlock_getElem]
    generalize s.cfg.macLayout[k] = source
    cases source with
    | page i => exact byteAt_lt s.session.rbuf (by omega)
    | secret | chal | ident | const => rfl
  · have hblock : macBlock s.cfg.macLayout m = macBlock s.cfg.macLayout s.session := by
      refine vector_eq_of_toList ?_
      rw [hdefault, macBlock_default, macBlock_default, defaultMacBlock, defaultMacBlock]
      simp only [hsecret, hchal, hpage, hident]
    cases hexec
    refine congrArg Host.Outcome.next ?_
    rw [doComputeMac_hashed, doComputeMac_hashed s, hblock, hashed_congr (s := s)]
    rfl

end Sys2Proof.Proofs
end

/-! ### The symbols on the line (R131 to R134) -/

section
namespace Sys2Proof.Proofs

open Sys2Proof.Machine Sys2Proof.Safety

/-- `RBIT` in closed form: the slot on the line, and the sample returned (R133). -/
theorem doRbit_eq (s : State) :
    doRbit s = { s with line := rbitLine s.cfg.tGap s.line, ret := bitValue (answer s.line 0) } := by
  rw [← rbitLevel_eq_answer s.cfg.tGap s.line, doRbit]

/-- Settles O10: `WBIT b` changes the line side alone, to the line after its slot. -/
theorem wbitIsItsSlot : Obligations.WbitIsItsSlot :=
  fun s => ⟨fun b => ⟨doWbit b s, rfl, rfl, wbitLine_after s.cfg.tGap b s.line⟩, rfl, rfl⟩

/-- Settles O11: `RBIT` in closed form, and the line after its slot. -/
theorem rbitIsItsSlot : Obligations.RbitIsItsSlot := by
  refine fun s => ⟨⟨doRbit s, rfl, ?_⟩, rfl⟩
  rw [doRbit_eq]
  exact ⟨rfl, rbitLine_after s.cfg.tGap s.line⟩

/-- Settles O12: `RESET` in closed form, and the line after its pulse. -/
theorem resetIsItsPulse : Obligations.ResetIsItsPulse := by
  refine fun s => ⟨⟨doReset s, rfl, ?_⟩, rfl⟩
  rw [doReset_eq]
  exact ⟨rfl, resetLine_after s.cfg.tGap s.line⟩

/-- Settles O13: `DELAY n` changes the line side alone, to the line after its wait. -/
theorem delayWaits : Obligations.DelayWaits :=
  fun s n => ⟨doDelay n s, rfl, rfl, delayLine_after s.cfg.tGap n s.line⟩

end Sys2Proof.Proofs
end

/-! ### Bytes and blocks on the line (R66, R67, R151, R153, R154) -/

section
namespace Sys2Proof.Proofs

open Sys2Proof.Machine Sys2Proof.Safety

/-- Settles O15: `RBYTE` in closed form, the bits of the byte answered, and the line after its eight slots. -/
theorem rbyteTakesTheLowBitFirst : Obligations.RbyteTakesTheLowBitFirst := by
  refine fun s => ⟨doRbyte s, answeredByte s.line 0, rfl, fun j hj => ?_, ?_⟩
  · rw [answeredByte_getLsbD s.line 0 j hj, Nat.zero_add]
  · rw [doRbyte_eq]
    exact ⟨rfl, lineAfterReads_after s.cfg.tGap 8 s.line⟩

/-! #### The count in its field -/

theorem toNat_eq_zero_iff {w : Nat} {n : BitVec w} : n.toNat = 0 ↔ n = 0 := by
  rw [← BitVec.toNat_inj, BitVec.ofNat_eq_ofNat, BitVec.toNat_zero]

/-- The counter's last value, when the number of rounds is itself a value of the counter's width. -/
theorem lastRound_toNat {w : Nat} (old n : BitVec w) : lastRound old n.toNat = if n = 0 then old else n - 1 := by
  simp only [lastRound, toNat_eq_zero_iff]
  split
  case isTrue => rfl
  case isFalse h =>
    have hpos : 0 < n.toNat := Nat.pos_of_ne_zero (mt toNat_eq_zero_iff.mp h)
    rw [BitVec.eq_sub_iff_add_eq, BitVec.ofNat_eq_ofNat, BitVec.ofNat_add_ofNat, Nat.sub_add_cancel hpos,
      BitVec.ofNat_toNat, BitVec.setWidth_eq]

/-! #### The blocks -/

/-- Settles O16: `WBLOCK` in closed form, and the line after its bytes. -/
theorem wblockSendsAscendingBytes : Obligations.WblockSendsAscendingBytes := by
  refine fun s src n hfits => ⟨doWblock src n.toNat s, exec_wblock_fits hfits s, ?_⟩
  simp only [doWblock_eq, lastRound_toNat, toNat_eq_zero_iff, true_and]
  exact lineAfterBytes_after s.cfg.tGap (blockBytes s src n.toNat) s.line

/-- Settles O17: what `doRblock_spec` says of the buffer and of all the rest; the last byte answered, which `SHREG` holds
and which is returned, is the last one stored. -/
theorem rblockStoresAscendingBytes : Obligations.RblockStoresAscendingBytes := by
  refine fun s buf n hfits => ⟨doRblock buf n.toNat s, exec_rblock_fits hfits s, ?_⟩
  obtain ⟨heq, hstored, hkept⟩ := doRblock_spec buf n.toNat s hfits
  have hline : (doRblock buf n.toNat s).line = lineAfterReads s.cfg.tGap (8 * n.toNat) s.line := by rw [heq]
  have hlast : ∀ old : Byte, (if n = 0 then old else readBuf (doRblock buf n.toNat s) buf (n.toNat - 1)) =
      if n = 0 then old else answeredByte s.line (8 * (n.toNat - 1)) := fun old =>
    ite_congr rfl (fun _ => rfl) fun h => hstored _ (Nat.sub_one_lt (mt toNat_eq_zero_iff.mp h))
  refine ⟨fun k j hk hj => ?_, hkept, ?_, ?_⟩
  · rw [hstored k hk, answeredByte_getLsbD _ _ _ hj]
  · rw [hlast, hlast, hline, ← lastRound_toNat]
    simpa only [toNat_eq_zero_iff] using heq
  · rw [hline]
    exact lineAfterReads_after s.cfg.tGap (8 * n.toNat) s.line

end Sys2Proof.Proofs
end

/-! ### The checks of the integrity layer (R169, R173 to R175) -/

section
namespace Sys2Proof.Proofs

open Sys2Proof.Machine

/-! #### What the checks compute (R169, R173) -/

/-- `CRC8_CHECK` by the definition of CRC8. -/
theorem exec_crc8Check (s : State) :
    exec .crc8Check s = .next { s with
      crc8r := crc8Bits 0 s.session.ident.toList
      flags := { s.flags with crc8Ok := decide (crc8Bits 0 s.session.ident.toList = 0) } } := by
  refine congrArg Host.Outcome.next ?_
  rw [doCrc8Check_eq, crc8Of_eq, crc8OkOf]

/-- `CRC16_CHECK frame` by the definition of CRC16. -/
theorem exec_crc16Check (f : Frame) (s : State) :
    exec (.crc16Check f) s = .next { s with
      crc16r := crc16Bits 0 (frameBytes s f)
      flags := { s.flags with crc16Ok := decide (crc16Bits 0 (frameBytes s f) = Config.crc16Residual) } } := by
  refine congrArg Host.Outcome.next ?_
  rw [doCrc16Check_eq, crc16Of_eq, crc16OkOf]

/-- The two bytes of the answer to a soft reset are the front of `MBUF` (R102). -/
theorem frameBytes_soft (s : State) :
    frameBytes s .soft = Config.cmdSoftReset ++ s.session.mbuf.toList.take 2 := by
  have h0 : readBuf s .mbuf 0 = s.session.mbuf[0] := byteAt_lt s.session.mbuf (by decide)
  have h1 : readBuf s .mbuf 1 = s.session.mbuf[1] := byteAt_lt s.session.mbuf (by decide)
  rw [frameBytes, h0, h1, ← List.take_append_getElem (i := 1) (by simp), ← List.take_append_getElem (i := 0) (by simp)]
  rfl

/-- Settles O20: each check in closed form, over the bytes its operand names. -/
theorem checksFlagTheirSequence : Obligations.ChecksFlagTheirSequence := by
  refine fun s => ⟨exec_crc8Check s, exec_crc16Check .page s, exec_crc16Check .mac s, ?_⟩
  rw [exec_crc16Check, frameBytes_soft]
  rfl

/-! #### Valid frames (R174) -/

theorem halfOfBytes_eq_iff (lo hi : Byte) (x : Half) :
    halfOfBytes lo hi = x ↔ lo = x.extractLsb' 0 8 ∧ hi = x.extractLsb' 8 8 := by
  constructor
  · rintro rfl
    exact ⟨(halfOfBytes_lo lo hi).symm, (halfOfBytes_hi lo hi).symm⟩
  · rintro ⟨rfl, rfl⟩
    exact halfOfBytes_bytes x

/-- The frame x with the check bytes lo and hi is valid exactly when they are the complement of the CRC16 of x. -/
theorem crc16Bits_frame_residual_iff (x : List Byte) (lo hi : Byte) :
    crc16Bits 0 (x ++ [lo, hi]) = Config.crc16Residual ↔
      lo = (~~~crc16Bits 0 x).extractLsb' 0 8 ∧ hi = (~~~crc16Bits 0 x).extractLsb' 8 8 := by
  rw [crc16Bits_append, crc16Bits_residual_iff, halfOfBytes_eq_iff]

/-- The check bytes of the MAC frame are its last two. -/
theorem macFrame_split (mbuf : Vector Byte 22) : mbuf.toList = mbuf.toList.take 20 ++ [mbuf[20], mbuf[21]] := by
  have hlen : mbuf.toList.length = 22 := mbuf.length_toList
  calc mbuf.toList
      = mbuf.toList.take 20 ++ mbuf.toList.drop 20 := (List.take_append_drop 20 _).symm
    _ = mbuf.toList.take 20 ++ [mbuf[20], mbuf[21]] := by
        rw [List.drop_eq_getElem_cons (by omega), List.drop_eq_getElem_cons (by omega),
          List.drop_eq_nil_of_le (by omega), Vector.getElem_toList, Vector.getElem_toList]

/-- Settles O21: the two check bytes against the complement of the register before them, and the MAC frame split before
its check bytes. -/
theorem validFramesEndInTheComplement : Obligations.ValidFramesEndInTheComplement := by
  refine ⟨crc16Bits_frame_residual_iff, fun s t hexec => ?_⟩
  rw [exec_crc16Check] at hexec
  cases hexec
  rw [decide_eq_true_iff, ← crc16Bits_frame_residual_iff, ← macFrame_split, frameBytes]

/-! #### Linearity (R175) -/

theorem crc8Shift8_xor (x y : Byte) : crc8Shift8 (x ^^^ y) = crc8Shift8 x ^^^ crc8Shift8 y := by
  simp only [crc8Shift8, Function.iterate_succ_apply, Function.iterate_zero_apply, crc8Shift_xor]

/-- The update of R168 is linear in register and byte. -/
theorem crc8Next_xor (c d b e : Byte) : crc8Next (c ^^^ d) (b ^^^ e) = crc8Next c b ^^^ crc8Next d e := by
  have hpair : c ^^^ d ^^^ (b ^^^ e) = c ^^^ b ^^^ (d ^^^ e) := by ac_rfl
  simp only [crc8Next, t8_eq_shift8, ← crc8Shift8_xor, hpair]

/-- The update of R172 is linear in register and byte. -/
theorem crc16Next_xor (c d : Half) (b e : Byte) :
    crc16Next (c ^^^ d) (b ^^^ e) = crc16Next c b ^^^ crc16Next d e := by
  have hpair : c ^^^ d ^^^ (b.zeroExtend 16 ^^^ e.zeroExtend 16) =
      c ^^^ b.zeroExtend 16 ^^^ (d ^^^ e.zeroExtend 16) := by ac_rfl
  simp only [crc16Next_eq, ← crc16Shift8_xor, BitVec.setWidth_xor, hpair]

/-- Folding an update that is linear in register and byte is linear in register and sequence. -/
theorem foldl_zipWith_xor {w : Nat} {next : BitVec w → Byte → BitVec w}
    (hlin : ∀ c d b e, next (c ^^^ d) (b ^^^ e) = next c b ^^^ next d e) (x y : List Byte) (hlen : x.length = y.length)
    (c d : BitVec w) :
    (List.zipWith (· ^^^ ·) x y).foldl next (c ^^^ d) = x.foldl next c ^^^ y.foldl next d := by
  induction x generalizing y c d with
  | nil =>
    cases y with
    | nil => rfl
    | cons e y => cases hlen
  | cons b x ih =>
    cases y with
    | nil => cases hlen
    | cons e y =>
      rw [List.zipWith_cons_cons, List.foldl_cons, hlin]
      exact ih y (Nat.succ.inj hlen) _ _

/-- Settles O22: each update is linear, and a checksum is the fold of its update from 0 = 0 ^ 0. -/
theorem checksumsAreLinear : Obligations.ChecksumsAreLinear := by
  refine ⟨fun x y hlen => ⟨?_, ?_⟩, fun s t b c => ⟨crc8Next_xor _ _ b c, crc16Next_xor _ _ b c⟩⟩
  · simp only [← foldl_crc8Next]
    exact foldl_zipWith_xor crc8Next_xor x y hlen 0 0
  · simp only [← foldl_crc16Next]
    exact foldl_zipWith_xor crc16Next_xor x y hlen 0 0

/-! #### A wrong byte is seen (R169 (c))

The shift steps of CRC8 lose nothing, so two sequences that differ in one byte have different checksums. -/

theorem crc8Shift_injective : Function.Injective crc8Shift := fun x y h => by
  have hzero : ∀ z : Byte, crc8Shift z = 0 → z = 0 := by decide
  exact BitVec.xor_eq_zero_iff.mp (hzero _ (by rw [crc8Shift_xor, h]; exact BitVec.xor_self))

theorem crc8Shift8_injective : Function.Injective crc8Shift8 := crc8Shift_injective.iterate 8

/-- Over the same bytes, different registers stay different. -/
theorem crc8Bits_inj (bytes : List Byte) {c d : Byte} : crc8Bits c bytes = crc8Bits d bytes ↔ c = d := by
  induction bytes generalizing c d with
  | nil => rfl
  | cons b bytes ih => rw [crc8Bits_cons, crc8Bits_cons, ih, crc8Shift8_injective.eq_iff, BitVec.xor_left_inj]

/-- Another byte in one place is another checksum. -/
theorem crc8Bits_set_eq_iff (c b : Byte) (bytes : List Byte) {k : Nat} (hk : k < bytes.length) :
    crc8Bits c (bytes.set k b) = crc8Bits c bytes ↔ b = bytes[k] := by
  have hset : ∀ e, crc8Bits c (bytes.set k e) =
      crc8Bits (crc8Shift8 (crc8Bits c (bytes.take k) ^^^ e)) (bytes.drop (k + 1)) := fun e => by
    rw [List.set_eq_take_cons_drop e hk]
    exact List.foldl_append
  have hself : crc8Bits c bytes = crc8Bits c (bytes.set k bytes[k]) := by rw [List.set_getElem_self]
  rw [hself, hset, hset, crc8Bits_inj, crc8Shift8_injective.eq_iff, BitVec.xor_right_inj]

theorem one_shiftLeft_ne_zero {w j : Nat} (hj : j < w) : 1#w <<< j ≠ 0 := fun h => by
  have hbit := congrArg (fun v => v.getLsbD j) h
  simp [hj] at hbit

/-- Settles O23: the byte with one bit changed is another byte, so the checksum is no longer 0. -/
theorem oneWrongBitOfAnIdentifierIsSeen : Obligations.OneWrongBitOfAnIdentifierIsSeen := by
  intro s t k j hj hvalid hexec
  rw [exec_crc8Check] at hexec
  cases hexec
  refine decide_eq_false fun hcrc => one_shiftLeft_ne_zero hj ?_
  rw [Vector.toList_set] at hcrc
  have hbyte := (crc8Bits_set_eq_iff _ _ _ (by simp)).mp (hcrc.trans hvalid.symm)
  simpa using hbyte

end Sys2Proof.Proofs
end

/-! ### Both comparators over all of their bytes (R190, R223) -/

section
namespace Sys2Proof.Proofs

open Sys2Proof.Machine

/-- Settles O29: a comparator's flag is 1 exactly when all bytes of the two sides agree, which is when they are equal. -/
theorem comparisonsTakeAllBytes : Obligations.ComparisonsTakeAllBytes := by
  intro s
  have hmac : macOkOf s.session = decide (s.session.mach.toList = s.session.mbuf.toList.take 20) := by
    rw [Bool.eq_iff_iff, macOkOf_iff, decide_eq_true_iff, eq_comm]
  have hecho : echoOkOf s.session = decide (s.session.echo = s.session.chal) := by
    rw [Bool.eq_iff_iff, echoOkOf_iff, decide_eq_true_iff]
  rw [← hmac, ← hecho]
  exact ⟨rfl, rfl⟩

end Sys2Proof.Proofs
end

/-! ### The gate and the selections (R186 to R188) -/

section
namespace Sys2Proof.Proofs

open Sys2Proof.Machine Sys2Proof.Safety

theorem doSelectRead_absent {s : State} (h : answer s.line 0 = true) : doSelectRead s = gate s :=
  thenOk_gate_absent _ h

theorem doSelectSkip_absent {s : State} (h : answer s.line 0 = true) : doSelectSkip s = gate s :=
  thenOk_gate_absent _ h

theorem doWriteChallenge_absent {s : State} (h : answer s.line 0 = true) : doWriteChallenge s = gate s := by
  have hres := gate_absent_res h
  rw [doWriteChallenge, doSelectSkip_absent h, thenOk_failed _ hres, thenOk_failed _ hres]

theorem doReadAuthPage_absent {s : State} (h : answer s.line 0 = true) : doReadAuthPage s = gate s := by
  have hres := gate_absent_res h
  rw [doReadAuthPage, doSelectSkip_absent h, thenOk_failed _ hres, thenOk_failed _ hres, thenOk_failed _ hres,
    thenOk_failed _ hres]

/-- On an absent peripheral every transaction and selection is its gate. -/
theorem exec_absent {s : State} (h : answer s.line 0 = true) {i : Instr}
    (hi : i ∈ [Instr.selectRead, .selectSkip, .readIdentifier, .writeChallenge, .readAuthPage, .softResetTxn]) :
    exec i s = .next (gate s) := by
  simp only [List.mem_cons, List.not_mem_nil, or_false] at hi
  obtain rfl | rfl | rfl | rfl | rfl | rfl := hi
  · exact congrArg Host.Outcome.next (doSelectRead_absent h)
  · exact congrArg Host.Outcome.next (doSelectSkip_absent h)
  · exact congrArg Host.Outcome.next (doReadIdentifier_absent h)
  · exact congrArg Host.Outcome.next (doWriteChallenge_absent h)
  · exact congrArg Host.Outcome.next (doReadAuthPage_absent h)
  · exact congrArg Host.Outcome.next (doSoftResetTxn_absent h)

/-- Settles O31: all that runs is the gate, in closed form. -/
theorem absenceIssuesNothingMore : Obligations.AbsenceIssuesNothingMore := by
  intro s habsent i hi
  refine ⟨gate s, exec_absent habsent hi, ?_⟩
  rw [gate_eq, habsent]
  exact ⟨habsent ▸ resetLine_after s.cfg.tGap s.line, rfl⟩

/-- Settles O32: the gate and the byte in closed form, for either byte. -/
theorem selectionsSendTheirByte : Obligations.SelectionsSendTheirByte := by
  intro s hpresent i v hi
  refine ⟨selected v s, ?_, hpresent ▸ selectLine_after s.cfg.tGap v s.line, rfl⟩
  simp only [List.mem_cons, List.not_mem_nil, or_false, Prod.mk.injEq] at hi
  obtain ⟨rfl, rfl⟩ | ⟨rfl, rfl⟩ := hi
  · exact congrArg Host.Outcome.next (select_present Config.cmdReadRom hpresent)
  · exact congrArg Host.Outcome.next (select_present Config.cmdSkipRom hpresent)

end Sys2Proof.Proofs
end

/-! ### The rows of the sequencer's tables (R193, R241, R253, R276)

A row names an operation and the check behind it. What follows the operation is one of four moves, each proved once for
every row: to the next step, to what ends the phase, to the unit's next attempt, or to `FINISH`. -/

section
namespace Sys2Proof.Proofs

open Sys2Proof.Machine Sys2Proof.Safety

/-! #### The operation of a row leaves `SEQ` where it stands -/

/-- `SEQ` stands at this step of this phase. -/
structure StandsAt (phase : Phase) (n : Nat) (t : State) : Prop where
  phase : t.seq.phase = phase
  step : t.seq.step.toNat = n

theorem StandsAt.eq_moved {phase : Phase} {n : Nat} {t : State} (h : StandsAt phase n t) :
    moved phase (BitVec.ofNat 6 n) t.seq.att t = t := by
  rw [← h.phase, ← h.step, BitVec.ofNat_toNat, BitVec.setWidth_eq]
  rfl

theorem samePosition_of_mem_phaseProgram {p : Config.Params} {phase : Phase} {i : Instr} {s t : State}
    (hi : i ∈ phaseProgram p phase) (h : exec i s = .next t) : SamePosition s t := by
  have hwf := phaseProgram_wf p phase i hi
  cases i with
  | reset => cases h; exact samePosition_doReset s
  | delay n => cases h; exact samePosition_doDelay n s
  | wbyte v => cases h; exact samePosition_doWbyte v s
  | wblock src n =>
    rw [exec_wblock_fits (wblock_wf_fits hwf)] at h
    cases h
    exact samePosition_doWblock src n.toNat s
  | rblock buf n =>
    have hfits := of_decide_eq_true hwf
    rw [exec_rblock_fits hfits] at h
    cases h
    exact samePosition_doRblock s hfits
  | crc8Check => cases h; exact samePosition_doCrc8Check s
  | crc16Check frame => cases h; exact samePosition_doCrc16Check frame s
  | deriveSecret => cases h; exact samePosition_doDeriveSecret s
  | echoCheck => cases h; exact samePosition_doEchoCheck s
  | _ => cases phase <;> simp [phaseProgram] at hi

/-- A row holds as soon as the transition after its operation is the one named. -/
theorem transition_of_afterOperation {phase : Phase} {n : Nat} {operation : Config.Params → Instr}
    {event : State → Prop} {effect : State → State}
    (hop : ∀ p, (phaseProgram p phase)[n]? = some (operation p))
    (hafter : ∀ t, StandsAt phase n t → event t → afterOperation t = effect t) :
    Transition phase n operation event effect := by
  intro s t hign hphase hstep hexec hevent
  have hnamed : seqInstr s = some (operation s.cfg) := by rw [seqInstr, hphase, hstep, hop]
  obtain ⟨-, -, hphase', hstep', -⟩ := samePosition_of_mem_phaseProgram (List.mem_of_getElem? (hop s.cfg)) hexec
  have hat : StandsAt phase n t := ⟨hphase'.trans hphase, (congrArg BitVec.toNat hstep').trans hstep⟩
  rw [stepRunsTheNamedMicroOperation.1 s t _ hign hnamed hexec, hafter t hat hevent]

/-! #### The four moves -/

theorem afterOperation_next {phase : Phase} {n : Nat} {t : State} (hat : StandsAt phase n t)
    (hpass : stepFailure t = none) (hnext : ∀ p, ((phaseProgram p phase)[n + 1]?).isSome = true) :
    afterOperation t = moved phase (BitVec.ofNat 6 (n + 1)) t.seq.att t := by
  have hlt : t.seq.step.toNat + 1 < (phaseProgram t.cfg t.seq.phase).length := by
    rw [hat.phase, hat.step]
    simpa using hnext t.cfg
  have hsucc : t.seq.step + 1 = BitVec.ofNat 6 (n + 1) := by
    rw [← hat.step, BitVec.ofNat_add, BitVec.ofNat_toNat, BitVec.setWidth_eq]
    rfl
  simp only [afterOperation, hpass, if_pos hlt, advance, hsucc, moved, ← hat.phase]

theorem afterOperation_last {phase : Phase} {n : Nat} {t : State} (hat : StandsAt phase n t)
    (hpass : stepFailure t = none) (hlast : ∀ p, (phaseProgram p phase)[n + 1]? = none) :
    afterOperation t = phaseEnd t := by
  have hge : ¬ t.seq.step.toNat + 1 < (phaseProgram t.cfg t.seq.phase).length := by
    rw [hat.phase, hat.step]
    exact Nat.not_lt.mpr (List.getElem?_eq_none_iff.mp (hlast t.cfg))
  simp only [afterOperation, hpass, if_neg hge]

theorem afterOperation_failed {t : State} {f : Failure} (h : stepFailure t = some f) :
    afterOperation t = takeFailure f t := by
  simp only [afterOperation, h]

/-- The next attempt (R241, R276). -/
theorem takeFailure_retried {f : Failure} {t : State} (hretry : retryable t.cfg f = true)
    (hatt : t.seq.att.toNat < 3) : takeFailure f t = restartUnit t :=
  if_pos (by rw [hretry, Config.nAttempts, decide_eq_true hatt]; rfl)

/-- The end of the command (R266, R276). -/
theorem takeFailure_final {f : Failure} {t : State} (h : retryable t.cfg f = false ∨ t.seq.att = 3) :
    takeFailure f t = finishing (failureStatus f) (failureCause f) t := by
  refine (if_neg ?_).trans rfl
  obtain hno | hatt := h
  · simp [hno]
  · simp [hatt, Config.nAttempts]

theorem restartUnit_idPhase {t : State} (h : t.seq.phase = .idPhase) :
    restartUnit t = moved .idPhase 0 (t.seq.att + 1) t := by
  simp only [restartUnit, h]
  rfl

theorem restartUnit_soft {t : State} (h : t.seq.phase = .soft) : restartUnit t = moved .soft 0 (t.seq.att + 1) t := by
  simp only [restartUnit, h]
  rfl

/-- The authentication loop begins again with a fresh challenge (R246). -/
theorem restartUnit_auth {t : State} (h : t.seq.phase = .authChallenge ∨ t.seq.phase = .authPage) :
    restartUnit t = moved .authChallenge 0 (t.seq.att + 1) (drawChallenge t) := by
  obtain h | h := h <;> simp only [restartUnit, h] <;> rfl

/-! #### Rows without a check -/

/-- A row of R193 whose operation has no check behind it. -/
structure PlainRow (phase : Phase) (n : Nat) (operation : Config.Params → Instr) : Prop where
  named : ∀ p, (phaseProgram p phase)[n]? = some (operation p)
  passes : ∀ t, stepFailure (moved phase (BitVec.ofNat 6 n) t.seq.att t) = none

section
variable {phase : Phase} {n : Nat} {operation : Config.Params → Instr}

theorem PlainRow.stepFailure_eq {t : State} (row : PlainRow phase n operation) (hat : StandsAt phase n t) :
    stepFailure t = none := hat.eq_moved ▸ row.passes t

theorem PlainRow.next (row : PlainRow phase n operation)
    (hnext : ∀ p, ((phaseProgram p phase)[n + 1]?).isSome = true) :
    Transition phase n operation (fun _ => True) (fun t => moved phase (BitVec.ofNat 6 (n + 1)) t.seq.att t) :=
  transition_of_afterOperation row.named fun _ hat _ => afterOperation_next hat (row.stepFailure_eq hat) hnext

theorem PlainRow.last {effect : State → State} (row : PlainRow phase n operation)
    (hlast : ∀ p, (phaseProgram p phase)[n + 1]? = none)
    (heffect : ∀ t, t.seq.phase = phase → phaseEnd t = effect t) :
    Transition phase n operation (fun _ => True) effect :=
  transition_of_afterOperation row.named fun t hat _ =>
    (afterOperation_last hat (row.stepFailure_eq hat) hlast).trans (heffect t hat.phase)

end

/-! #### Rows with a gate or a check -/

/-- A row of R193 whose operation sets a flag, and the failure raised where the flag is 0. -/
structure CheckedRow (phase : Phase) (n : Nat) (operation : Config.Params → Instr) (flag : Flags → Bool)
    (f : Failure) : Prop where
  named : ∀ p, (phaseProgram p phase)[n]? = some (operation p)
  checks : ∀ t, stepFailure (moved phase (BitVec.ofNat 6 n) t.seq.att t) = if flag t.flags then none else some f

section
variable {phase : Phase} {n : Nat} {operation : Config.Params → Instr} {flag : Flags → Bool} {f : Failure}
  {event : State → Prop} {effect : State → State}

theorem CheckedRow.stepFailure_eq {t : State} (row : CheckedRow phase n operation flag f) (hat : StandsAt phase n t) :
    stepFailure t = if flag t.flags then none else some f :=
  (congrArg stepFailure hat.eq_moved).symm.trans (row.checks t)

theorem CheckedRow.passes {t : State} (row : CheckedRow phase n operation flag f) (hat : StandsAt phase n t)
    (hflag : flag t.flags = true) : stepFailure t = none := by
  rw [row.stepFailure_eq hat, if_pos hflag]

theorem CheckedRow.fails {t : State} (row : CheckedRow phase n operation flag f) (hat : StandsAt phase n t)
    (hflag : flag t.flags = false) : afterOperation t = takeFailure f t :=
  afterOperation_failed (by rw [row.stepFailure_eq hat, hflag, if_neg Bool.false_ne_true])

theorem CheckedRow.next (row : CheckedRow phase n operation flag f)
    (hnext : ∀ p, ((phaseProgram p phase)[n + 1]?).isSome = true) :
    Transition phase n operation (fun t => flag t.flags = true)
      (fun t => moved phase (BitVec.ofNat 6 (n + 1)) t.seq.att t) :=
  transition_of_afterOperation row.named fun _ hat hflag => afterOperation_next hat (row.passes hat hflag) hnext

theorem CheckedRow.last (row : CheckedRow phase n operation flag f)
    (hlast : ∀ p, (phaseProgram p phase)[n + 1]? = none) (hflag : ∀ t, event t → flag t.flags = true)
    (heffect : ∀ t, t.seq.phase = phase → event t → phaseEnd t = effect t) :
    Transition phase n operation event effect :=
  transition_of_afterOperation row.named fun t hat hevent =>
    (afterOperation_last hat (row.passes hat (hflag t hevent)) hlast).trans (heffect t hat.phase hevent)

/-- The failure starts the unit's next attempt. -/
theorem CheckedRow.restarts (row : CheckedRow phase n operation flag f)
    (hflag : ∀ t, event t → flag t.flags = false)
    (hretry : ∀ t, event t → retryable t.cfg f = true ∧ t.seq.att.toNat < 3)
    (heffect : ∀ t, t.seq.phase = phase → restartUnit t = effect t) :
    Transition phase n operation event effect := by
  refine transition_of_afterOperation row.named fun t hat hevent => ?_
  obtain ⟨hf, hatt⟩ := hretry t hevent
  rw [row.fails hat (hflag t hevent), takeFailure_retried hf hatt, heffect t hat.phase]

/-- The failure ends the command. -/
theorem CheckedRow.finishes (row : CheckedRow phase n operation flag f)
    (hflag : ∀ t, event t → flag t.flags = false)
    (hfinal : ∀ t, event t → retryable t.cfg f = false ∨ t.seq.att = 3) :
    Transition phase n operation event (finishing (failureStatus f) (failureCause f)) :=
  transition_of_afterOperation row.named fun t hat hevent =>
    (row.fails hat (hflag t hevent)).trans (takeFailure_final (hfinal t hevent))

/-- Absence that is not retried (R247). -/
theorem CheckedRow.absent (row : CheckedRow phase n operation flag .notPresent) :
    Transition phase n operation (fun t => flag t.flags = false ∧ t.cfg.presenceRetry = false)
      (finishing .deviceNotPresent .none) :=
  row.finishes (fun _ h => h.1) fun _ h => .inl h.2

/-- A failed integrity check with attempts left. -/
theorem CheckedRow.again {c : Cause} (row : CheckedRow phase n operation flag (.integrity c))
    (heffect : ∀ t, t.seq.phase = phase → restartUnit t = effect t) :
    Transition phase n operation (fun t => flag t.flags = false ∧ t.seq.att.toNat < 3) effect :=
  row.restarts (fun _ h => h.1) (fun _ h => ⟨rfl, h.2⟩) heffect

/-- A failed integrity check at the last attempt. -/
theorem CheckedRow.exhausted {c : Cause} (row : CheckedRow phase n operation flag (.integrity c)) :
    Transition phase n operation (fun t => flag t.flags = false ∧ t.seq.att = 3) (finishing .integrityError c) :=
  row.finishes (fun _ h => h.1) fun _ h => .inr h.2

end

/-! #### The gates and the checks of R193 -/

theorem gateRow {phase : Phase} (h : phase ∈ [Phase.idPhase, .authChallenge, .authPage, .soft]) :
    CheckedRow phase 0 (fun _ => .reset) Flags.present .notPresent := by
  simp only [List.mem_cons, List.not_mem_nil, or_false] at h
  obtain rfl | rfl | rfl | rfl := h <;> exact ⟨fun _ => rfl, fun _ => rfl⟩

theorem identifierRow : CheckedRow .idPhase 3 (fun _ => .crc8Check) Flags.crc8Ok (.integrity .crc8Id) :=
  ⟨fun _ => rfl, fun _ => rfl⟩

theorem echoRow : CheckedRow .authChallenge 5 (fun _ => .echoCheck) Flags.echoOk (.integrity .echoMismatch) :=
  ⟨fun _ => rfl, fun _ => rfl⟩

theorem pageRow : CheckedRow .authPage 6 (fun _ => .crc16Check .page) Flags.crc16Ok (.integrity .crc16Page) :=
  ⟨fun _ => rfl, fun _ => rfl⟩

theorem macRow : CheckedRow .authPage 9 (fun _ => .crc16Check .mac) Flags.crc16Ok (.integrity .crc16Mac) :=
  ⟨fun _ => rfl, fun _ => rfl⟩

theorem softRow : CheckedRow .soft 4 (fun _ => .crc16Check .soft) Flags.crc16Ok (.integrity .crc16Soft) :=
  ⟨fun _ => rfl, fun _ => rfl⟩

/-! #### The ends of the phases (R253) -/

theorem phaseEnd_getIdentifier {t : State} (h : t.seq.phase = .idPhase) (hcmd : t.seq.cmd = 1) :
    phaseEnd t = moved (.finish .ok .none .ident) 0 t.seq.att t :=
  (phaseEnd_of_idPhase h).trans (if_pos hcmd)

theorem phaseEnd_authenticate {t : State} (h : t.seq.phase = .idPhase) (hcmd : t.seq.cmd = 2) :
    phaseEnd t = moved .derive 0 t.seq.att t :=
  (phaseEnd_of_idPhase h).trans (if_neg (by rw [hcmd]; decide))

theorem phaseEnd_derive {t : State} (h : t.seq.phase = .derive) :
    phaseEnd t = moved .authChallenge 0 1 (drawChallenge t) := by
  simp only [phaseEnd, h]
  rfl

theorem phaseEnd_authChallenge {t : State} (h : t.seq.phase = .authChallenge) :
    phaseEnd t = moved .authPage 0 t.seq.att t := by
  simp only [phaseEnd, h]
  rfl

/-- The MAC is computed and compared on the way to `AUTH_VERIFY` (R246). -/
theorem phaseEnd_authPage {t : State} (h : t.seq.phase = .authPage) :
    phaseEnd t = goTo .authVerify (doVerifyMac (doComputeMac t)) := by
  simp only [phaseEnd, h]

theorem phaseEnd_soft {t : State} (h : t.seq.phase = .soft) :
    phaseEnd t = moved (.finish .ok .none .nothing) 0 t.seq.att t := by
  simp only [phaseEnd, h]
  rfl

theorem sequencerStep_authVerify {s : State} (h : s.seq.phase = .authVerify) :
    sequencerStep s = .next (verdict s) := by
  simp only [sequencerStep, h]

/-! #### The tables -/

/-- Settles O48, row by row: the gate, two plain rows, and the four ways on from the identifier's check. -/
theorem identifierPhaseFollowsTheTables : Obligations.IdentifierPhaseFollowsTheTables := by
  have hgate := gateRow (phase := .idPhase) (by decide)
  exact ⟨hgate.next fun _ => rfl, hgate.absent,
    PlainRow.next ⟨fun _ => rfl, fun _ => rfl⟩ fun _ => rfl,
    PlainRow.next ⟨fun _ => rfl, fun _ => rfl⟩ fun _ => rfl,
    identifierRow.again fun _ => restartUnit_idPhase, identifierRow.exhausted,
    identifierRow.last (fun _ => rfl) (fun _ h => h.1) fun _ hphase h => phaseEnd_getIdentifier hphase h.2,
    identifierRow.last (fun _ => rfl) (fun _ h => h.1) fun _ hphase h => phaseEnd_authenticate hphase h.2⟩

/-- Settles O49, row by row: the secret, the gate, four plain rows, and the three ways on from the echo's check. -/
theorem challengePhaseFollowsTheTables : Obligations.ChallengePhaseFollowsTheTables := by
  have hgate := gateRow (phase := .authChallenge) (by decide)
  exact ⟨PlainRow.last ⟨fun _ => rfl, fun _ => rfl⟩ (fun _ => rfl) fun _ => phaseEnd_derive,
    hgate.next fun _ => rfl, hgate.absent,
    PlainRow.next ⟨fun _ => rfl, fun _ => rfl⟩ fun _ => rfl,
    PlainRow.next ⟨fun _ => rfl, fun _ => rfl⟩ fun _ => rfl,
    PlainRow.next ⟨fun _ => rfl, fun _ => rfl⟩ fun _ => rfl,
    PlainRow.next ⟨fun _ => rfl, fun _ => rfl⟩ fun _ => rfl,
    echoRow.again fun _ h => restartUnit_auth (.inl h), echoRow.exhausted,
    echoRow.last (fun _ => rfl) (fun _ h => h) fun _ hphase _ => phaseEnd_authChallenge hphase⟩

/-- `AUTH_VERIFY` (R248, R253). -/
theorem step_authVerify {s : State} (hign : inputIgnored s = true) (h : s.seq.phase = .authVerify) :
    step s = .next (if s.flags.macOk then moved (.finish .ok .none .trusted) 0 s.seq.att (popInput s)
      else finishing .authenticationFailure .none (popInput s)) := by
  have hfail : takeFailure .macMismatch (popInput s) = finishing .authenticationFailure .none (popInput s) :=
    takeFailure_final (.inl rfl)
  rw [step_of_inputIgnored hign, sequencerStep_authVerify (s := popInput s) h, verdict, hfail]
  rfl

/-- Settles O50, row by row; both checks of the page transaction lead to the same places. -/
theorem pagePhaseFollowsTheTables : Obligations.PagePhaseFollowsTheTables := by
  have hgate := gateRow (phase := .authPage) (by decide)
  refine ⟨hgate.next fun _ => rfl, hgate.absent,
    PlainRow.next ⟨fun _ => rfl, fun _ => rfl⟩ fun _ => rfl,
    PlainRow.next ⟨fun _ => rfl, fun _ => rfl⟩ fun _ => rfl,
    PlainRow.next ⟨fun _ => rfl, fun _ => rfl⟩ fun _ => rfl,
    PlainRow.next ⟨fun _ => rfl, fun _ => rfl⟩ fun _ => rfl,
    PlainRow.next ⟨fun _ => rfl, fun _ => rfl⟩ fun _ => rfl,
    pageRow.next fun _ => rfl,
    PlainRow.next ⟨fun _ => rfl, fun _ => rfl⟩ fun _ => rfl,
    PlainRow.next ⟨fun _ => rfl, fun _ => rfl⟩ fun _ => rfl,
    fun position frame c hrow => ?_, fun s t u v hign hphase hstep hexec hflag hmac hverify => ?_,
    fun s hign hphase => ?_⟩
  · have hagain : ∀ t : State, t.seq.phase = .authPage → restartUnit t = _ := fun _ h => restartUnit_auth (.inr h)
    simp only [List.mem_cons, List.not_mem_nil, or_false, Prod.mk.injEq] at hrow
    obtain ⟨rfl, rfl, rfl⟩ | ⟨rfl, rfl, rfl⟩ := hrow
    · exact ⟨pageRow.again hagain, pageRow.exhausted⟩
    · exact ⟨macRow.again hagain, macRow.exhausted⟩
  · have hend : Transition .authPage 9 (fun _ => .crc16Check .mac) (fun t => t.flags.crc16Ok = true)
        fun t => goTo .authVerify (doVerifyMac (doComputeMac t)) :=
      macRow.last (fun _ => rfl) (fun _ h => h) fun _ h _ => phaseEnd_authPage h
    cases hmac
    cases hverify
    exact hend s t hign hphase (congrArg BitVec.toNat hstep) hexec hflag
  · rw [step_authVerify hign hphase]
    exact ⟨fun hok => by rw [hok]; rfl, fun hbad => by rw [hbad]; rfl⟩

/-- Settles O51, row by row: the gate, the exchange, the check of the answer, and the settle
delay that ends the phase. -/
theorem softResetPhaseFollowsTheTables : Obligations.SoftResetPhaseFollowsTheTables := by
  have hgate := gateRow (phase := .soft) (by decide)
  exact ⟨hgate.next fun _ => rfl, hgate.absent,
    PlainRow.next ⟨fun _ => rfl, fun _ => rfl⟩ fun _ => rfl,
    PlainRow.next ⟨fun _ => rfl, fun _ => rfl⟩ fun _ => rfl,
    PlainRow.next ⟨fun _ => rfl, fun _ => rfl⟩ fun _ => rfl,
    softRow.next fun _ => rfl, softRow.again fun _ => restartUnit_soft, softRow.exhausted,
    PlainRow.last ⟨fun _ => rfl, fun _ => rfl⟩ (fun _ => rfl) fun _ => phaseEnd_soft⟩

end Sys2Proof.Proofs
end

/-! ### The one-block core round by round, and the bits that are masked (R211 to R218) -/

section
namespace Sys2Proof.Proofs

open Sys2Proof.Machine

/-! #### The schedule (R211) -/

theorem rotl_eq_rotateLeft (x : Word) {n : Nat} (h : n < 32) : rotl n x = x.rotateLeft n := by
  rw [rotl, BitVec.rotateLeft_def, Nat.mod_eq_of_lt h]

/-- Every word past the first 16 is the one R211 makes of the words before it. -/
def FollowsRecurrence (ws : List Word) : Prop :=
  ∀ k, 16 ≤ k → k < ws.length →
    ws.getD k 0 =
      rotl 1 (ws.getD (k - 3) 0 ^^^ ws.getD (k - 8) 0 ^^^ ws.getD (k - 14) 0 ^^^ ws.getD (k - 16) 0)

/-- The next word, of the words so far in their own order. -/
theorem nextWord_reverse {ws : List Word} (h : 16 ≤ ws.length) :
    nextWord ws.reverse = rotl 1 (ws.getD (ws.length - 3) 0 ^^^ ws.getD (ws.length - 8) 0 ^^^
      ws.getD (ws.length - 14) 0 ^^^ ws.getD (ws.length - 16) 0) := by
  simp only [nextWord]
  rw [List.getD_reverse 2 (by omega), List.getD_reverse 7 (by omega), List.getD_reverse 13 (by omega),
    List.getD_reverse 15 (by omega)]
  simp only [Nat.sub_sub, Nat.reduceAdd]

theorem FollowsRecurrence.snoc_nextWord {ws : List Word} (hws : FollowsRecurrence ws) (hlen : 16 ≤ ws.length) :
    FollowsRecurrence (ws ++ [nextWord ws.reverse]) := by
  have hold : ∀ {j : Nat}, j < ws.length → (ws ++ [nextWord ws.reverse]).getD j 0 = ws.getD j 0 :=
    fun h => List.getD_append _ _ _ _ h
  intro k hk hlt
  rw [List.length_append, List.length_singleton] at hlt
  rw [hold (j := k - 3) (by omega), hold (j := k - 8) (by omega), hold (j := k - 14) (by omega),
    hold (j := k - 16) (by omega)]
  by_cases hin : k < ws.length
  · rw [hold hin]
    exact hws k hk hin
  · obtain rfl : k = ws.length := by omega
    rw [← nextWord_reverse hlen, List.getD_append_right _ _ _ _ le_rfl, Nat.sub_self, List.getD_cons_zero]

/-- The words of the schedule once k have been added, the first one first. -/
def scheduleSoFar (msg : Vector Byte 64) (k : Nat) : List Word := (expandSchedule k (inputWords msg).reverse).reverse

theorem expandSchedule_succ (k : Nat) (ws : List Word) :
    expandSchedule (k + 1) ws = nextWord (expandSchedule k ws) :: expandSchedule k ws := by
  induction k generalizing ws with
  | zero => rfl
  | succ k ih => exact ih (nextWord ws :: ws)

theorem scheduleSoFar_zero (msg : Vector Byte 64) : scheduleSoFar msg 0 = inputWords msg :=
  List.reverse_reverse _

theorem scheduleSoFar_succ (msg : Vector Byte 64) (k : Nat) :
    scheduleSoFar msg (k + 1) = scheduleSoFar msg k ++ [nextWord (scheduleSoFar msg k).reverse] := by
  rw [scheduleSoFar, expandSchedule_succ, List.reverse_cons, scheduleSoFar, List.reverse_reverse]

theorem inputWords_length (msg : Vector Byte 64) : (inputWords msg).length = 16 := by
  rw [inputWords, List.length_map, List.length_range]

theorem scheduleSoFar_length (msg : Vector Byte 64) (k : Nat) : (scheduleSoFar msg k).length = 16 + k := by
  induction k with
  | zero => rw [scheduleSoFar_zero, inputWords_length]
  | succ k ih => rw [scheduleSoFar_succ, List.length_append, ih]; rfl

theorem inputWords_prefix (msg : Vector Byte 64) (k : Nat) : inputWords msg <+: scheduleSoFar msg k := by
  induction k with
  | zero => rw [scheduleSoFar_zero]
  | succ k ih => exact scheduleSoFar_succ msg k ▸ ih.trans (List.prefix_append _ _)

theorem followsRecurrence_scheduleSoFar (msg : Vector Byte 64) (k : Nat) : FollowsRecurrence (scheduleSoFar msg k) := by
  induction k with
  | zero => intro j hj hlt; rw [scheduleSoFar_length] at hlt; omega
  | succ k ih =>
    rw [scheduleSoFar_succ]
    exact ih.snoc_nextWord (by rw [scheduleSoFar_length]; omega)

theorem scheduleList_eq (msg : Vector Byte 64) : scheduleList msg = scheduleSoFar msg 64 := by
  rw [scheduleList, scheduleSoFar]

theorem scheduleList_length (msg : Vector Byte 64) : (scheduleList msg).length = 80 := by
  rw [scheduleList_eq, scheduleSoFar_length]

theorem schedule_getElem (msg : Vector Byte 64) {k : Nat} (h : k < 80) :
    (schedule msg)[k] = (scheduleList msg).getD k 0 := by
  unfold schedule
  exact Vector.getElem_ofFn h

/-- The first 16 words are those of the block. -/
theorem schedule_input (msg : Vector Byte 64) {k : Nat} (h : k < 16) :
    (schedule msg)[k] = wordBE msg k := by
  have hlt : k < (inputWords msg).length := by rwa [inputWords_length]
  obtain ⟨rest, hrest⟩ := inputWords_prefix msg 64
  rw [schedule_getElem, scheduleList_eq, ← hrest, List.getD_append _ _ _ _ hlt, List.getD_eq_getElem _ _ hlt]
  simp [inputWords]

theorem schedule_recurrence (msg : Vector Byte 64) {k : Nat} (hk : 16 ≤ k) (h : k < 80) :
    (schedule msg)[k] = ((schedule msg)[k - 3] ^^^ (schedule msg)[k - 8] ^^^ (schedule msg)[k - 14] ^^^
      (schedule msg)[k - 16]).rotateLeft 1 := by
  rw [← rotl_eq_rotateLeft _ (by decide)]
  simp only [schedule_getElem, scheduleList_eq]
  exact followsRecurrence_scheduleSoFar msg 64 k hk (by rwa [scheduleSoFar_length])

theorem wordBE_eq_bytes (msg : Vector Byte 64) {k : Nat} (h : k < 16) :
    wordBE msg k = msg[4 * k].zeroExtend 32 <<< 24 ||| msg[4 * k + 1].zeroExtend 32 <<< 16 |||
      msg[4 * k + 2].zeroExtend 32 <<< 8 ||| msg[4 * k + 3].zeroExtend 32 := by
  rw [wordBE, byteAt_lt msg (by omega), byteAt_lt msg (by omega), byteAt_lt msg (by omega), byteAt_lt msg (by omega)]

/-! #### The rounds (R212, R213) -/

/-- The working registers before round k, on this block. -/
def workingBefore (msg : Vector Byte 64) (k : Nat) : Working := runRounds 0 ((scheduleList msg).take k) ivWorking

theorem runRounds_snoc (t : Nat) (ws : List Word) (w : Word) (v : Working) :
    runRounds t (ws ++ [w]) v = roundStep (runRounds t ws v) (t + ws.length) w := by
  induction ws generalizing t v with
  | nil => rfl
  | cons x ws ih =>
    rw [List.cons_append, runRounds, ih, runRounds, List.length_cons, Nat.add_assoc, Nat.add_comm 1]

theorem workingBefore_succ (msg : Vector Byte 64) {k : Nat} (h : k < 80) :
    workingBefore msg (k + 1) = roundStep (workingBefore msg k) k (schedule msg)[k] := by
  have hlt : k < (scheduleList msg).length := by rwa [scheduleList_length]
  rw [workingBefore, List.take_succ_eq_append_getElem hlt, runRounds_snoc, List.length_take_of_le hlt.le, Nat.zero_add,
    schedule_getElem msg h, List.getD_eq_getElem _ _ hlt, workingBefore]

theorem workingBefore_eighty (msg : Vector Byte 64) : workingBefore msg 80 = workingAfter msg := by
  rw [workingBefore, List.take_of_length_le (scheduleList_length msg).le]
  unfold workingAfter
  rfl

/-- Round k as R212 and R213 write it. -/
theorem roundStep_eq (v : Working) (k : Nat) (w : Word) :
    roundStep v k w =
      ⟨v.a.rotateLeft 5 + roundFunction k v.b v.c v.d + v.e + roundConstant k + w,
        v.a, v.b.rotateLeft 30, v.c, v.d⟩ := by
  rw [roundStep, rotl_eq_rotateLeft _ (by decide), rotl_eq_rotateLeft _ (by decide)]

/-- Settles O24: the registers before round k are those of the run over the first k words of the schedule. -/
theorem sha1RunsItsRounds : Obligations.Sha1RunsItsRounds := by
  intro s
  refine ⟨doSha1 s, workingBefore s.sha.msg, rfl, fun k h => ?_, fun k hk h => schedule_recurrence s.sha.msg hk h, rfl,
    fun k h => ?_, ?_⟩
  · exact (schedule_input s.sha.msg h).trans (wordBE_eq_bytes s.sha.msg h)
  · exact (workingBefore_succ s.sha.msg h).trans (roundStep_eq _ k _)
  · have hend := (workingBefore_eighty s.sha.msg).symm
    exact ⟨congrArg Working.a hend, congrArg Working.b hend, congrArg Working.c hend, congrArg Working.d hend,
      congrArg Working.e hend, congrArg (hashOutput s.cfg.sha1FeedForward) hend, rfl⟩

/-! #### The masked bits (R218) -/

/-- The block holds of byte 0 of the identifier its low six bits only. -/
theorem secretBlock_congr (template : Vector Byte 64) (offset : Fin 57) {ident ident' : Vector Byte 8}
    (h0 : ident[0] &&& 0x3F = ident'[0] &&& 0x3F) (h : ∀ (k : Nat) (_ : k < 8), 0 < k → ident[k] = ident'[k]) :
    secretBlock template offset ident = secretBlock template offset ident' := by
  refine Vector.ext fun k hk => ?_
  rw [secretBlock_getElem, secretBlock_getElem]
  split
  next hin =>
    split
    next => exact h0
    next hne => exact h _ (by omega) (by omega)
  next => rfl

/-- Settles O26: both identifiers make the same block. -/
theorem maskedBitsDoNotReachTheSecret : Obligations.MaskedBitsDoNotReachTheSecret := by
  intro s t ident hexec h0 h
  cases hexec
  have hblock := secretBlock_congr s.cfg.secretTemplate s.cfg.secretIdOffset h0 h
  refine congrArg Host.Outcome.next ?_
  rw [doDeriveSecret_hashed, doDeriveSecret_hashed s, hblock, hashed_congr (s := s)]
  rfl

end Sys2Proof.Proofs
end

/-! ### Absence retried (R241, R247) -/

section
namespace Sys2Proof.Proofs

open Sys2Proof.Machine Sys2Proof.Safety

/-- Settles O53: the gate's row of each phase, its failure one that may be retried. -/
theorem presenceRetryUsesUpAttempts : Obligations.PresenceRetryUsesUpAttempts := by
  intro phase hphase
  have hgate := gateRow hphase
  refine ⟨hgate.restarts (fun _ ⟨habsent, _⟩ => habsent) (fun _ ⟨_, hretry, hatt⟩ => ⟨hretry, hatt⟩) fun t ht => ?_,
    hgate.finishes (fun _ ⟨habsent, _⟩ => habsent) fun _ ⟨_, _, hatt⟩ => .inr hatt⟩
  split
  next hauth => exact restartUnit_auth (by rwa [ht])
  next hother =>
    simp only [List.mem_cons, List.not_mem_nil, or_false] at hphase
    obtain rfl | rfl | rfl | rfl := hphase
    · exact restartUnit_idPhase ht
    · exact absurd (.inl rfl) hother
    · exact absurd (.inr rfl) hother
    · exact restartUnit_soft ht

end Sys2Proof.Proofs
end

/-! ### The steps a running command has left (R253, R254)

A number that every step of a running block lowers: the attempts left of the unit times the unit's steps, the steps left
of this attempt, and those of the phases behind it. -/

section
namespace Sys2Proof.Proofs

open Sys2Proof.Machine Sys2Proof.Safety

/-! #### A running block and its step -/

/-- A command runs, and the host neither pulls `rst` nor presents an operation. -/
structure Running (s : State) : Prop where
  busy : s.flags.busy = true
  calm : hostCalm s.env.inputs

/-- One step of a running block. -/
structure RunStep (s t : State) : Prop where
  running : Running s
  step : step s = .next t

theorem Running.inputIgnored {s : State} (h : Running s) : inputIgnored s = true := by
  have hcalm := h.calm
  unfold Safety.inputIgnored
  split
  next => rfl
  next => rfl
  next => rw [h.busy, Bool.true_or]
  next hinput => rw [hinput] at hcalm; simpa using hcalm _ List.mem_cons_self
  next hinput => rw [hinput] at hcalm; simpa using hcalm _ List.mem_cons_self

theorem Running.step_eq {s : State} (h : Running s) : Machine.step s = sequencerStep (popInput s) :=
  step_of_inputIgnored h.inputIgnored

theorem Running.popped {s : State} (h : Running s) : Running (popInput s) :=
  ⟨h.busy, fun x hx => h.calm x (List.mem_of_mem_tail hx)⟩

theorem TransitionFrame.running {s t : State} (h : TransitionFrame s t) (hs : Running s) : Running t :=
  ⟨h.busy.trans hs.busy, h.inputs ▸ hs.calm⟩

/-- An operation that `SEQ` names in a running block leaves it running. -/
theorem Running.exec_frame {s t : State} {i : Instr} (hs : Running s) (h : exec i s = .next t) :
    OperationFrame s t := by
  obtain hframe | ⟨hidle, -⟩ := exec_cases h
  · exact hframe
  · exact absurd (hs.busy.symm.trans hidle) (by decide)

/-- What a step of a running block can be, said once: an operation and the transition behind it, the verdict, or
`finish`. -/
theorem RunStep.cases {s t : State} (h : RunStep s t) (hpos : legalPosition s = true) :
    (∃ u, OperationFrame (popInput s) u ∧ phaseProgram s.cfg s.seq.phase ≠ [] ∧ t = afterOperation u) ∨
      (s.seq.phase = .authVerify ∧ t = verdict (popInput s)) ∨
      ∃ st c out, s.seq.phase = .finish st c out ∧ t = finish st c out (popInput s) := by
  have hstep := h.running.step_eq.symm.trans h.step
  unfold sequencerStep at hstep
  split at hstep
  next hp => exact absurd hp (phase_ne_idle_of_busy (s := popInput s) hpos h.running.busy)
  next hp => cases hstep; exact .inr (.inl ⟨hp, rfl⟩)
  next st c out hp => cases hstep; exact .inr (.inr ⟨st, c, out, hp, rfl⟩)
  next =>
    split at hstep
    next i hi =>
      unfold execThen at hstep
      split at hstep
      next u hu =>
        cases hstep
        exact .inl ⟨u, h.running.popped.exec_frame hu, List.ne_nil_of_mem (List.mem_of_getElem? hi), rfl⟩
      next => cases hstep
      next => cases hstep
    next => cases hstep

/-- A step of a running block leaves it running, or is `finish`. -/
theorem RunStep.running_or_finish {s t : State} (h : RunStep s t) (hpos : legalPosition s = true) :
    Running t ∨ ∃ st c out, s.seq.phase = .finish st c out ∧ t = finish st c out (popInput s) := by
  have hpop := h.running.popped
  obtain ⟨u, hop, -, rfl⟩ | ⟨-, rfl⟩ | hfin := h.cases hpos
  · exact .inl ((TransitionFrame.trans ⟨hop.toPortFrame, hop.inputs⟩ (transitionFrame_afterOperation u)).running hpop)
  · exact .inl ((transitionFrame_verdict _).running hpop)
  · exact .inr hfin

theorem RunStep.legal {s t : State} (h : RunStep s t) (hpos : legalPosition s = true) :
    legalPosition t = true := by
  obtain ⟨u, hop, -, rfl⟩ | ⟨hphase, rfl⟩ | ⟨st, c, out, -, rfl⟩ := h.cases hpos
  · exact legalPosition_afterOperation (hop.legalPosition_eq.trans hpos) (hop.busy.trans h.running.busy)
  · exact legalPosition_verdict (s := popInput s) hpos hphase
  · rfl

/-! #### The steps left -/

/-- The most steps of a command behind its identifier phase: `FINISH`, or the authentication first. -/
def stepsBehindIdentifier (cmd : BitVec 2) : Nat := if cmd = 1 then 1 else 51

theorem one_le_stepsBehindIdentifier (cmd : BitVec 2) : 1 ≤ stepsBehindIdentifier cmd := by
  unfold stepsBehindIdentifier
  split <;> decide

/-- The most steps a command has left, its attempts left all failing at their last check. -/
def stepsLeft (s : State) : Nat :=
  match s.seq.phase with
  | .idle => 0
  | .idPhase => 4 * (3 - s.seq.att.toNat) + (4 - s.seq.step.toNat) + stepsBehindIdentifier s.seq.cmd
  | .derive => 51
  | .authChallenge => 16 * (3 - s.seq.att.toNat) + (16 - s.seq.step.toNat) + 2
  | .authPage => 16 * (3 - s.seq.att.toNat) + (10 - s.seq.step.toNat) + 2
  | .authVerify => 2
  | .soft => 6 * (3 - s.seq.att.toNat) + (6 - s.seq.step.toNat) + 1
  | .finish _ _ _ => 1

/-- A phase with operations of its own has at least this step and `finish` before it. -/
theorem one_lt_stepsLeft {s : State} (hpos : legalPosition s = true) (hops : phaseProgram s.cfg s.seq.phase ≠ []) :
    1 < stepsLeft s := by
  have hstep := step_lt_of_legalPosition hpos hops
  have hbehind := one_le_stepsBehindIdentifier s.seq.cmd
  cases hp : s.seq.phase with
  | idle | authVerify | finish => exact absurd (by rw [hp]; rfl) hops
  | idPhase | derive | authChallenge | authPage | soft =>
    simp only [hp, phaseProgram, List.length_cons, List.length_nil] at hstep
    simp only [stepsLeft, hp]
    omega

theorem att_succ_toNat {att : BitVec 2} (h : att.toNat < Config.nAttempts) : (att + 1).toNat = att.toNat + 1 := by
  revert att
  decide

/-- A check that can fail stands in a retried unit. -/
theorem phase_of_stepFailure {s : State} {f : Failure} (h : stepFailure s = some f) :
    s.seq.phase ∈ [Phase.idPhase, .authChallenge, .authPage, .soft] := by
  cases hp : s.seq.phase <;> simp_all [stepFailure]

/-- The next attempt has fewer steps left than this one. -/
theorem stepsLeft_restartUnit_lt {s : State} (hpos : legalPosition s = true)
    (hphase : s.seq.phase ∈ [Phase.idPhase, .authChallenge, .authPage, .soft])
    (hatt : s.seq.att.toNat < Config.nAttempts) : stepsLeft (restartUnit s) < stepsLeft s := by
  have hnext := att_succ_toNat hatt
  have hlt : s.seq.att.toNat < 3 := hatt
  have hstep := step_lt_of_legalPosition hpos
  simp only [List.mem_cons, List.not_mem_nil, or_false] at hphase
  obtain h | h | h | h := hphase <;>
    · simp only [h, phaseProgram, ne_eq, reduceCtorEq, not_false_eq_true, forall_const, List.length_cons,
        List.length_nil] at hstep
      simp only [stepsLeft, restartUnit, beginAuthAttempt, h, goTo_seq, setAtt_seq, drawChallenge_seq, hnext]
      omega

theorem stepsLeft_takeFailure_lt {s : State} {f : Failure} (hpos : legalPosition s = true)
    (hphase : s.seq.phase ∈ [Phase.idPhase, .authChallenge, .authPage, .soft])
    (hops : phaseProgram s.cfg s.seq.phase ≠ []) : stepsLeft (takeFailure f s) < stepsLeft s := by
  unfold takeFailure
  split
  next hretry =>
    rw [Bool.and_eq_true, decide_eq_true_eq] at hretry
    exact stepsLeft_restartUnit_lt hpos hphase hretry.2
  next => exact one_lt_stepsLeft hpos hops

theorem stepsLeft_advance_lt {s : State} (hnext : s.seq.step.toNat + 1 < (phaseProgram s.cfg s.seq.phase).length) :
    stepsLeft (advance s) < stepsLeft s := by
  have hsucc : (s.seq.step + 1).toNat = s.seq.step.toNat + 1 := by
    have hlength : (phaseProgram s.cfg s.seq.phase).length ≤ 10 := by cases s.seq.phase <;> simp [phaseProgram]
    have hone : (1 : BitVec 6).toNat = 1 := rfl
    rw [BitVec.toNat_add, hone]
    omega
  cases hp : s.seq.phase with
  | idle | derive | authVerify | finish => simp [phaseProgram, hp] at hnext
  | idPhase | authChallenge | authPage | soft =>
    simp only [hp, phaseProgram, List.length_cons, List.length_nil] at hnext
    simp only [stepsLeft, advance, hp, hsucc]
    omega

theorem stepsLeft_phaseEnd_lt {s : State} (hpos : legalPosition s = true)
    (hops : phaseProgram s.cfg s.seq.phase ≠ []) : stepsLeft (phaseEnd s) < stepsLeft s := by
  have hmin := one_lt_stepsLeft hpos hops
  have hstep := step_lt_of_legalPosition hpos hops
  cases hp : s.seq.phase with
  | idle | authVerify | finish => exact absurd (by rw [hp]; rfl) hops
  | idPhase =>
    rw [phaseEnd_of_idPhase hp]
    split
    next => exact hmin
    next hcmd =>
      simp only [hp, phaseProgram, List.length_cons, List.length_nil] at hstep
      simp only [stepsLeft, goTo, hp, stepsBehindIdentifier, if_neg hcmd]
      omega
  | derive =>
    rw [phaseEnd_derive hp]
    simp only [stepsLeft, moved, hp]
    decide
  | authChallenge =>
    rw [phaseEnd_authChallenge hp]
    simp only [hp, phaseProgram, List.length_cons, List.length_nil] at hstep
    simp only [stepsLeft, moved, hp]
    omega
  | authPage =>
    rw [phaseEnd_authPage hp]
    simp only [hp, phaseProgram, List.length_cons, List.length_nil] at hstep
    simp only [stepsLeft, goTo, hp]
    omega
  | soft =>
    rw [phaseEnd_soft hp]
    exact hmin

theorem stepsLeft_afterOperation_lt {s : State} (hpos : legalPosition s = true)
    (hops : phaseProgram s.cfg s.seq.phase ≠ []) : stepsLeft (afterOperation s) < stepsLeft s := by
  unfold afterOperation
  split
  next f hf => exact stepsLeft_takeFailure_lt hpos (phase_of_stepFailure hf) hops
  next =>
    split
    next hnext => exact stepsLeft_advance_lt hnext
    next => exact stepsLeft_phaseEnd_lt hpos hops

theorem stepsLeft_verdict (s : State) : stepsLeft (verdict s) = 1 := by
  unfold verdict
  split
  · rfl
  · rw [takeFailure_final (.inl rfl)]
    rfl

theorem OperationFrame.stepsLeft_eq {s t : State} (h : OperationFrame s t) : stepsLeft t = stepsLeft s := by
  obtain ⟨-, hcmd, hphase, hstep, hatt, -⟩ := h.position
  simp only [stepsLeft, hcmd, hphase, hstep, hatt]

/-- Every step of a running block lowers the number of steps left. -/
theorem RunStep.stepsLeft_lt {s t : State} (h : RunStep s t) (hpos : legalPosition s = true) :
    stepsLeft t < stepsLeft s := by
  obtain ⟨u, hop, hops, rfl⟩ | ⟨hphase, rfl⟩ | ⟨st, c, out, hphase, rfl⟩ := h.cases hpos
  · have hcfg := hop.cfg
    obtain ⟨-, -, hphase, -⟩ := hop.position
    have hlt := stepsLeft_afterOperation_lt (hop.legalPosition_eq.trans hpos) (by rw [hcfg, hphase]; exact hops)
    rwa [hop.stepsLeft_eq] at hlt
  · rw [stepsLeft_verdict]
    simp [stepsLeft, hphase]
  · simp [stepsLeft, hphase]

theorem stepsLeft_le {s : State} (hpos : legalPosition s = true) : stepsLeft s ≤ 63 := by
  have hbehind : stepsBehindIdentifier s.seq.cmd ≤ 51 := by unfold stepsBehindIdentifier; split <;> decide
  cases hp : s.seq.phase with
  | idle | derive | authVerify | finish => simp [stepsLeft, hp]
  | idPhase | authChallenge | authPage | soft =>
    have hatt : 1 ≤ s.seq.att.toNat := by simp_all [legalPosition]
    simp only [stepsLeft, hp]
    omega

/-! #### Runs -/

/-- A running block goes from s to t. -/
abbrev Runs : State → State → Prop := Relation.ReflTransGen RunStep

theorem core_run_succ {s t : State} (h : step s = .next t) (k : Nat) :
    Sys2Proof.core.run (k + 1) s = Sys2Proof.core.run k t := by
  have hcore : Sys2Proof.core.step s = .next t := h
  simp only [Host.Core.run, hcore]

/-- t is k steps behind s, and the block is busy in each of them. -/
def BusyUntil (k : Nat) (s t : State) : Prop :=
  Sys2Proof.core.run k s = .next t ∧
    ∀ j, j < k → ∃ v, Sys2Proof.core.run j s = .next v ∧ v.flags.busy = true

theorem BusyUntil.zero (s : State) : BusyUntil 0 s s := ⟨rfl, fun j hj => absurd hj (Nat.not_lt_zero j)⟩

theorem BusyUntil.cons {k : Nat} {s t u : State} (h : RunStep s t) (hrun : BusyUntil k t u) :
    BusyUntil (k + 1) s u := by
  obtain ⟨hend, hbusy⟩ := hrun
  refine ⟨(core_run_succ h.step k).trans hend, fun j hj => ?_⟩
  cases j with
  | zero => exact ⟨s, rfl, h.running.busy⟩
  | succ j =>
    rw [core_run_succ h.step]
    exact hbusy j (Nat.lt_of_succ_lt_succ hj)

theorem BusyUntil.pos {k : Nat} {s t : State} (h : BusyUntil k s t) (hs : s.flags.busy = true)
    (ht : t.flags.busy = false) : 0 < k := by
  refine Nat.pos_of_ne_zero ?_
  rintro rfl
  cases h.1
  exact absurd (hs.symm.trans ht) (by decide)

/-- A run takes no more steps than are left. -/
theorem Runs.busyUntil {s t : State} (h : Runs s t) (hpos : legalPosition s = true) :
    ∃ k, k ≤ stepsLeft s ∧ BusyUntil k s t := by
  induction h using Relation.ReflTransGen.head_induction_on with
  | refl => exact ⟨0, Nat.zero_le _, .zero t⟩
  | head hstep _ ih =>
    obtain ⟨k, hk, hrun⟩ := ih (hstep.legal hpos)
    exact ⟨k + 1, hk.trans_lt (hstep.stepsLeft_lt hpos), hrun.cons hstep⟩

theorem Running.step_next {s : State} (h : Running s) (hpos : legalPosition s = true) : ∃ t, RunStep s t := by
  obtain ⟨t, ht⟩ := sequencerStep_of_legalPosition (popInput_legalPosition hpos)
  exact ⟨t, h, h.step_eq.trans ht⟩

/-- A running block comes to its `finish` (R254). -/
theorem Running.comes_to_finish {s : State} (h : Running s) (hpos : legalPosition s = true) :
    ∃ u t st c out, Runs s t ∧ legalFinish u.seq.cmd st c out = true ∧ t = finish st c out u := by
  induction hn : stepsLeft s using Nat.strong_induction_on generalizing s with
  | _ n ih =>
    subst hn
    obtain ⟨t, hstep⟩ := h.step_next hpos
    obtain hrunning | ⟨st, c, out, hphase, rfl⟩ := hstep.running_or_finish hpos
    · obtain ⟨u, e, st, c, out, hrun, hend⟩ :=
        ih _ (hstep.stepsLeft_lt hpos) hrunning (hstep.legal hpos) rfl
      exact ⟨u, e, st, c, out, .head hstep hrun, hend⟩
    · refine ⟨popInput s, _, st, c, out, .single hstep, ?_, rfl⟩
      simp only [legalPosition, hphase, Bool.and_eq_true] at hpos
      exact hpos.2

/-- Settles O55: every step of a running block lowers the number of steps left, of which there are at most 63, and the
last one is `finish`. -/
theorem everyRunningCommandFinishes : Obligations.EveryRunningCommandFinishes := by
  intro s hs hbusy hcalm
  obtain ⟨hpos, -, -⟩ := hs
  obtain ⟨u, t, st, c, out, hruns, hfin, rfl⟩ := Running.comes_to_finish ⟨hbusy, hcalm⟩ hpos
  obtain ⟨k, hk, hrun⟩ := hruns.busyUntil hpos
  have hstatus : st ≠ .none := by
    simp only [legalFinish, Bool.and_eq_true, decide_eq_true_eq] at hfin
    exact hfin.1.1
  exact ⟨k, _, hrun.pos hbusy rfl, hk.trans (stepsLeft_le hpos), hrun.1, rfl, rfl, rfl, hstatus⟩

end Sys2Proof.Proofs
end

/-! ### The step beside the pseudocode: what each runs (R193, R240 to R250)

The pseudocode run whole and the sequencer do the same operations; they hold different positions, result codes and
inputs. A state of each stands beside the other when they agree in everything else. -/

section
namespace Sys2Proof.Proofs

open Sys2Proof.Machine Sys2Proof.Safety

/-! #### Beside each other -/

/-- What no operation of a command reads or writes, but for the result code: where `SEQ` stands and what the host does
next. -/
structure Place where
  phase : Phase
  step : BitVec 6
  res : TxnResult
  inputs : List Input

/-- The state with this place in place of its own. -/
def withPlace (p : Place) (s : State) : State :=
  { s with
    seq := { s.seq with phase := p.phase, step := p.step }
    res := p.res, env := { s.env with inputs := p.inputs } }

/-- The two states differ in their place alone. -/
def Beside (w t : State) : Prop := ∃ p, t = withPlace p w

theorem Beside.cfg {w t : State} (h : Beside w t) : t.cfg = w.cfg := by obtain ⟨p, rfl⟩ := h; rfl

theorem Beside.att {w t : State} (h : Beside w t) : t.seq.att = w.seq.att := by obtain ⟨p, rfl⟩ := h; rfl

theorem Beside.cmd {w t : State} (h : Beside w t) : t.seq.cmd = w.seq.cmd := by obtain ⟨p, rfl⟩ := h; rfl

theorem Beside.flags {w t : State} (h : Beside w t) : t.flags = w.flags := by obtain ⟨p, rfl⟩ := h; rfl

theorem Beside.trans {w t u : State} (h : Beside w t) (k : Beside t u) : Beside w u := by
  obtain ⟨p, rfl⟩ := h
  obtain ⟨q, rfl⟩ := k
  exact ⟨q, rfl⟩

theorem Beside.symm {w t : State} (h : Beside w t) : Beside t w := by
  obtain ⟨p, rfl⟩ := h
  exact ⟨⟨w.seq.phase, w.seq.step, w.res, w.env.inputs⟩, rfl⟩

theorem beside_moved (phase : Phase) (n : BitVec 6) (t : State) : Beside t (moved phase n t.seq.att t) :=
  ⟨⟨phase, n, t.res, t.env.inputs⟩, rfl⟩

theorem beside_goTo (phase : Phase) (t : State) : Beside t (goTo phase t) := ⟨⟨phase, 0, t.res, t.env.inputs⟩, rfl⟩

theorem beside_popInput (t : State) : Beside t (popInput t) :=
  ⟨⟨t.seq.phase, t.seq.step, t.res, t.env.inputs.tail⟩, rfl⟩

/-- The result code is no part of what must agree. -/
theorem beside_res (r : TxnResult) (w : State) : Beside w { w with res := r } :=
  ⟨⟨w.seq.phase, w.seq.step, r, w.env.inputs⟩, rfl⟩

/-! #### The operations -/

/-- The operation does the same wherever the sequencer stands. -/
def IgnoresPlace (f : State → State) : Prop := ∀ p s, f (withPlace p s) = withPlace p (f s)

theorem IgnoresPlace.respects {f : State → State} (h : IgnoresPlace f) : Respects Beside f := by
  rintro s _ ⟨p, rfl⟩
  exact ⟨p, h p s⟩

theorem ignoresPlace_foldl {f : State → Nat → State} (h : ∀ k, IgnoresPlace fun s => f s k) (ks : List Nat) :
    IgnoresPlace fun s => ks.foldl f s := by
  intro p s
  induction ks generalizing s with
  | nil => rfl
  | cons k ks ih => exact (congrArg (ks.foldl f) (h k p s)).trans (ih _)

theorem ignoresPlace_doWbyte (v : Byte) : IgnoresPlace (doWbyte v) := fun p s => by
  rw [doWbyte_eq, doWbyte_eq]
  rfl

theorem ignoresPlace_writeByteOf (src : BlockSource) (k : Nat) : IgnoresPlace fun s => writeByteOf src s k := by
  intro p s
  have hbyte : sourceByte (withPlace p s) src k = sourceByte s src k := sourceByte_congr (s := s) rfl rfl src k
  simp only [writeByteOf, doWbyte_eq, hbyte]
  rfl

theorem ignoresPlace_doWblock (src : BlockSource) (n : Nat) : IgnoresPlace (doWblock src n) :=
  ignoresPlace_foldl (ignoresPlace_writeByteOf src) (List.range n)

theorem ignoresPlace_readByteInto (buf : Buf) (k : Nat) : IgnoresPlace fun s => readByteInto buf s k := by
  intro p s
  simp only [readByteInto, doRbyte_eq]
  cases buf <;> rfl

theorem ignoresPlace_doRblock (buf : Buf) (n : Nat) : IgnoresPlace (doRblock buf n) :=
  ignoresPlace_foldl (ignoresPlace_readByteInto buf) (List.range n)

theorem ignoresPlace_doCrc8Check : IgnoresPlace doCrc8Check := fun p s => by
  rw [doCrc8Check_eq, doCrc8Check_eq]
  rfl

theorem ignoresPlace_doCrc16Check (frame : Frame) : IgnoresPlace (doCrc16Check frame) := fun p s => by
  rw [doCrc16Check_eq, doCrc16Check_eq]
  cases frame <;> rfl

/-! #### Attempts of a unit, operation by operation -/

/-- The sequencer at step n of a phase. -/
def toStep (phase : Phase) (n : Nat) (t : State) : State := moved phase (BitVec.ofNat 6 n) t.seq.att t

theorem standsAt_toStep (phase : Phase) {n : Nat} (h : n < 64) (t : State) : StandsAt phase n (toStep phase n t) :=
  ⟨rfl, Nat.mod_eq_of_lt h⟩

/-- The sequencer in q comes to stand beside r: it is `there` if r ended with `ok`, and has taken the failure, in a
phase of the unit, if r failed. -/
def Arrives (unit : List Phase) (q r : State) (there : State → State) : Prop :=
  ∃ u, Beside r u ∧ Running u ∧ u.seq.phase ∈ unit ∧
    (r.res = .ok ∧ Runs q (there u) ∨ ∃ e, r.res = .failed e ∧ Runs q (takeFailure e u))

/-- What the pseudocode does with f, the sequencer does from `here` on. -/
def Follows (unit : List Phase) (here f there : State → State) : Prop :=
  ∀ w t, w.res = .ok → Beside w t → Running t → Arrives unit (here t) (f w) there

theorem Arrives.of_runs {unit : List Phase} {p q r : State} {there : State → State} (hruns : Runs p q)
    (h : Arrives unit q r there) : Arrives unit p r there := by
  obtain ⟨u, hu, hurun, huphase, hend⟩ := h
  exact ⟨u, hu, hurun, huphase, hend.imp (fun ⟨h, k⟩ => ⟨h, hruns.trans k⟩) fun ⟨e, h, k⟩ => ⟨e, h, hruns.trans k⟩⟩

/-- One after the other. -/
theorem Follows.thenOk {unit : List Phase} {a b c f g : State → State} (hf : Follows unit a f b)
    (hg : Follows unit b g c) : Follows unit a (fun w => thenOk g (f w)) c := by
  intro w t hok hbeside hrunning
  obtain ⟨u, hu, hurun, huphase, ⟨hfok, hruns⟩ | ⟨e, hfe, hruns⟩⟩ := hf w t hok hbeside hrunning
  · change Arrives unit (a t) (Machine.thenOk g (f w)) c
    rw [thenOk_ok g hfok]
    exact (hg (f w) u hfok hu hurun).of_runs hruns
  · change Arrives unit (a t) (Machine.thenOk g (f w)) c
    rw [thenOk_failed g hfe]
    exact ⟨u, hu, hurun, huphase, .inr ⟨e, hfe, hruns⟩⟩

/-- One after the other, where the first cannot fail. -/
theorem Follows.comp {unit : List Phase} {a b c f g : State → State} (hf : Follows unit a f b)
    (hkeeps : ∀ w, (f w).res = w.res) (hg : Follows unit b g c) : Follows unit a (fun w => g (f w)) c := by
  intro w t hok hbeside hrunning
  have h : Arrives unit (a t) (Machine.thenOk g (f w)) c := hf.thenOk hg w t hok hbeside hrunning
  rwa [thenOk_ok g ((hkeeps w).trans hok)] at h

section
variable {unit : List Phase} {phase : Phase} {n : Nat} {operation : Config.Params → Instr} {f next : State → State}

/-- The step that runs the operation `SEQ` names, from beside the pseudocode. -/
theorem step_beside {event : State → Prop} (hn : n < 64) (hexec : ∀ s, exec (operation s.cfg) s = .next (f s))
    (hrespects : Respects Beside f) (hrow : Transition phase n operation event next) {w t : State}
    (hbeside : Beside w t) (hrunning : Running t) :
    ∃ u, Beside (f w) u ∧ Running u ∧ u.seq.phase = phase ∧ (event u → RunStep (toStep phase n t) (next u)) := by
  have hat := standsAt_toStep phase hn t
  have hrun : Running (toStep phase n t) := ⟨hrunning.busy, hrunning.calm⟩
  have hexec' := hexec (popInput (toStep phase n t))
  have hframe := hrun.popped.exec_frame hexec'
  obtain ⟨-, -, hphase, -⟩ := hframe.position
  refine ⟨f (popInput (toStep phase n t)), hrespects ((hbeside.trans (beside_moved _ _ t)).trans (beside_popInput _)),
    ⟨hframe.busy.trans hrunning.busy, hframe.inputs ▸ hrun.popped.calm⟩, hphase, fun hevent => ⟨hrun, ?_⟩⟩
  exact hrow _ _ hrun.inputIgnored hat.phase hat.step hexec' hevent

/-- A row without a check. -/
theorem follows_row (hn : n < 64) (hunit : phase ∈ unit) (hexec : ∀ s, exec (operation s.cfg) s = .next (f s))
    (hplace : IgnoresPlace f) (hres : ∀ w, (f w).res = w.res)
    (hrow : Transition phase n operation (fun _ => True) next) : Follows unit (toStep phase n) f next := by
  intro w t hok hbeside hrunning
  obtain ⟨u, hu, hurun, huphase, hstep⟩ := step_beside hn hexec hplace.respects hrow hbeside hrunning
  exact ⟨u, hu, hurun, huphase ▸ hunit, .inl ⟨(hres w).trans hok, .single (hstep trivial)⟩⟩

/-- A row with a gate or a check. -/
theorem follows_check {flag : Flags → Bool} {e : Failure} (hn : n < 64) (hunit : phase ∈ unit)
    (hexec : ∀ s, exec (operation s.cfg) s = .next (f s)) (hplace : IgnoresPlace f) (hres : ∀ w, (f w).res = w.res)
    (hcheck : CheckedRow phase n operation flag e)
    (hrow : Transition phase n operation (fun t => flag t.flags = true) next) :
    Follows unit (toStep phase n) (fun w => require (fun t => flag t.flags) e (f w)) next := by
  intro w t hok hbeside hrunning
  have hfails : Transition phase n operation (fun t => flag t.flags = false) (takeFailure e) :=
    transition_of_afterOperation hcheck.named fun _ hat hflag => hcheck.fails hat hflag
  change Arrives unit (toStep phase n t) (require (fun t => flag t.flags) e (f w)) next
  cases hflag : flag (f w).flags with
  | true =>
    obtain ⟨u, hu, hurun, huphase, hstep⟩ := step_beside hn hexec hplace.respects hrow hbeside hrunning
    have hruns := Relation.ReflTransGen.single (hstep ((congrArg flag hu.flags).trans hflag))
    rw [require_true e hflag]
    exact ⟨u, hu, hurun, huphase ▸ hunit, .inl ⟨(hres w).trans hok, hruns⟩⟩
  | false =>
    obtain ⟨u, hu, hurun, huphase, hstep⟩ := step_beside hn hexec hplace.respects hfails hbeside hrunning
    have hruns := Relation.ReflTransGen.single (hstep ((congrArg flag hu.flags).trans hflag))
    rw [require_false e hflag]
    exact ⟨u, (beside_res (.failed e) (f w)).symm.trans hu, hurun, huphase ▸ hunit, .inr ⟨e, rfl, hruns⟩⟩

end

section
variable {unit : List Phase} {phase : Phase} {n : Nat} (hn : n < 64) (hunit : phase ∈ unit)
  (hnext : ∀ p, ((phaseProgram p phase)[n + 1]?).isSome = true)
include hn hunit hnext

theorem follows_wbyte {v : Byte} (row : PlainRow phase n fun _ => .wbyte v) :
    Follows unit (toStep phase n) (doWbyte v) (toStep phase (n + 1)) :=
  follows_row hn hunit (fun _ => rfl) (ignoresPlace_doWbyte v) (doWbyte_res v) (row.next hnext)

theorem follows_wblock {src : BlockSource} {count : BitVec 6} {m : Nat} (hm : count.toNat = m) (hfits : m ≤ src.length)
    (row : PlainRow phase n fun _ => .wblock src count) :
    Follows unit (toStep phase n) (doWblock src m) (toStep phase (n + 1)) := by
  subst hm
  exact follows_row hn hunit (exec_wblock_fits hfits) (ignoresPlace_doWblock _ _) (doWblock_res _ _) (row.next hnext)

theorem follows_rblock {buf : Buf} {count : BitVec 6} {m : Nat} (hm : count.toNat = m) (hfits : m ≤ buf.length)
    (row : PlainRow phase n fun _ => .rblock buf count) :
    Follows unit (toStep phase n) (doRblock buf m) (toStep phase (n + 1)) := by
  subst hm
  exact follows_row hn hunit (exec_rblock_fits hfits) (ignoresPlace_doRblock _ _) (fun w => doRblock_res w hfits)
    (row.next hnext)

end

theorem succeed_of_ok {s : State} (h : s.res = .ok) : succeed s = s := by
  rw [succeed, ← h]

/-- The gate of every phase. -/
theorem follows_gate {phase : Phase} {unit : List Phase}
    (hphase : phase ∈ [Phase.idPhase, .authChallenge, .authPage, .soft]) (hunit : phase ∈ unit) :
    Follows unit (toStep phase 0) gate (toStep phase 1) := by
  have hnext : ∀ p, ((phaseProgram p phase)[0 + 1]?).isSome = true := by
    simp only [List.mem_cons, List.not_mem_nil, or_false] at hphase
    obtain rfl | rfl | rfl | rfl := hphase <;> exact fun _ => rfl
  have hrow := gateRow hphase
  intro w t hok
  rw [gate, succeed_of_ok ((doReset_res w).trans hok)]
  exact follows_check (by decide) hunit (fun _ => rfl) (fun _ _ => rfl) doReset_res hrow (hrow.next hnext) w t hok

/-! #### The transactions (R186 to R192) -/

/-- `READ_IDENTIFIER` (R189). -/
theorem follows_doReadIdentifier : Follows [.idPhase] (toStep .idPhase 0) doReadIdentifier phaseEnd := by
  have hsend : Follows [.idPhase] (toStep .idPhase 1) (doWbyte Config.cmdReadRom) (toStep .idPhase 2) :=
    follows_wbyte (by decide) (by decide) (fun _ => rfl) ⟨fun _ => rfl, fun _ => rfl⟩
  have hread : Follows [.idPhase] (toStep .idPhase 2) (doRblock .ident 8) (toStep .idPhase 3) :=
    follows_rblock (count := 8) (by decide) (by decide) (fun _ => rfl) rfl (by decide) ⟨fun _ => rfl, fun _ => rfl⟩
  have hcheck : Follows [.idPhase] (toStep .idPhase 3) checkIdentifier phaseEnd :=
    follows_check (by decide) (by decide) (fun _ => rfl) ignoresPlace_doCrc8Check doCrc8Check_res identifierRow
      (identifierRow.last (fun _ => rfl) (fun _ h => h) fun _ _ _ => rfl)
  exact (((follows_gate (by decide) (by decide)).thenOk hsend).thenOk hread).thenOk hcheck

/-- The selection that begins the other transactions (R188). -/
theorem follows_doSelectSkip {phase : Phase} {unit : List Phase}
    (hphase : phase ∈ [Phase.authChallenge, .authPage, .soft]) (hunit : phase ∈ unit) :
    Follows unit (toStep phase 0) doSelectSkip (toStep phase 2) := by
  have hrow : PlainRow phase 1 (fun _ => .wbyte Config.cmdSkipRom) ∧
      ∀ p, ((phaseProgram p phase)[1 + 1]?).isSome = true := by
    simp only [List.mem_cons, List.not_mem_nil, or_false] at hphase
    obtain rfl | rfl | rfl := hphase <;> exact ⟨⟨fun _ => rfl, fun _ => rfl⟩, fun _ => rfl⟩
  exact (follows_gate (List.mem_cons_of_mem _ hphase) hunit).thenOk
    (follows_wbyte (by decide) hunit hrow.2 hrow.1)

/-- The phases of the authentication loop (R246). -/
def authPhases : List Phase := [.authChallenge, .authPage, .authVerify]

/-- `WRITE_CHALLENGE` (R190). -/
theorem follows_doWriteChallenge :
    Follows authPhases (toStep .authChallenge 0) doWriteChallenge (toStep .authPage 0) := by
  have hsend : Follows authPhases (toStep .authChallenge 2) (doWbyte Config.cmdWriteChallenge)
      (toStep .authChallenge 3) := follows_wbyte (by decide) (by decide) (fun _ => rfl) ⟨fun _ => rfl, fun _ => rfl⟩
  have hchallenge : Follows authPhases (toStep .authChallenge 3) (doWblock (.buf .chal) 12) (toStep .authChallenge 4) :=
    follows_wblock (count := 12) (by decide) (by decide) (fun _ => rfl) rfl (by decide) ⟨fun _ => rfl, fun _ => rfl⟩
  have hecho : Follows authPhases (toStep .authChallenge 4) (doRblock .echo 12) (toStep .authChallenge 5) :=
    follows_rblock (count := 12) (by decide) (by decide) (fun _ => rfl) rfl (by decide) ⟨fun _ => rfl, fun _ => rfl⟩
  have hcheck : Follows authPhases (toStep .authChallenge 5) checkEcho (toStep .authPage 0) :=
    follows_check (by decide) (by decide) (fun _ => rfl) (fun _ _ => rfl) (fun _ => rfl) echoRow
      (echoRow.last (fun _ => rfl) (fun _ h => h) fun _ hphase _ => phaseEnd_authChallenge hphase)
  have hexchange := (hsend.comp (doWbyte_res _) hchallenge).comp
    (fun _ => (doWblock_res _ _ _).trans (doWbyte_res _ _)) hecho
  exact ((follows_doSelectSkip (by decide) (by decide)).thenOk hexchange).thenOk hcheck

/-- The MAC computed and compared, on the way to the verdict (R246, R253). -/
def toVerdict (t : State) : State := goTo .authVerify (doVerifyMac (doComputeMac t))

/-- The command sent byte by byte and the page frame read (R191). -/
theorem follows_readPage : Follows authPhases (toStep .authPage 2) readPage (toStep .authPage 6) := by
  have hA5 : Follows authPhases (toStep .authPage 2) (doWbyte 0xA5) (toStep .authPage 3) :=
    follows_wbyte (by decide) (by decide) (fun _ => rfl) ⟨fun _ => rfl, fun _ => rfl⟩
  have hfirst : Follows authPhases (toStep .authPage 3) (doWbyte 0x00) (toStep .authPage 4) :=
    follows_wbyte (by decide) (by decide) (fun _ => rfl) ⟨fun _ => rfl, fun _ => rfl⟩
  have hsecond : Follows authPhases (toStep .authPage 4) (doWbyte 0x00) (toStep .authPage 5) :=
    follows_wbyte (by decide) (by decide) (fun _ => rfl) ⟨fun _ => rfl, fun _ => rfl⟩
  have hframe : Follows authPhases (toStep .authPage 5) (fun w => doRblock .rbuf w.cfg.nPageRead.count.toNat w)
      (toStep .authPage 6) :=
    follows_row (operation := fun p => .rblock .rbuf p.nPageRead.count) (by decide) (by decide)
      (fun _ => exec_rblock_fits (pageRead_count_le _) _) (fun p s => ignoresPlace_doRblock _ _ p s)
      (fun w => doRblock_res w (pageRead_count_le _)) (PlainRow.next ⟨fun _ => rfl, fun _ => rfl⟩ fun _ => rfl)
  have hall := ((hA5.comp (doWbyte_res _) hfirst).comp (fun _ => (doWbyte_res _ _).trans (doWbyte_res _ _)) hsecond).comp
    (fun _ => ((doWbyte_res _ _).trans (doWbyte_res _ _)).trans (doWbyte_res _ _)) hframe
  exact hall

/-- The settle delay and the MAC frame (R191). -/
theorem follows_readMac : Follows authPhases (toStep .authPage 7) readMac (toStep .authPage 9) := by
  have hdelay : Follows authPhases (toStep .authPage 7) (doDelay Config.tCsha) (toStep .authPage 8) :=
    follows_row (operation := fun _ => .delay Config.tCsha) (by decide) (by decide) (fun _ => rfl) (fun _ _ => rfl)
      (fun _ => rfl) (PlainRow.next ⟨fun _ => rfl, fun _ => rfl⟩ fun _ => rfl)
  have hframe : Follows authPhases (toStep .authPage 8) (doRblock .mbuf 22) (toStep .authPage 9) :=
    follows_rblock (count := 22) (by decide) (by decide) (fun _ => rfl) rfl (by decide) ⟨fun _ => rfl, fun _ => rfl⟩
  exact hdelay.comp (doDelay_res _) hframe

/-- `READ_AUTH_PAGE` (R191). -/
theorem follows_doReadAuthPage : Follows authPhases (toStep .authPage 0) doReadAuthPage toVerdict := by
  have hcheckPage : Follows authPhases (toStep .authPage 6) checkPage (toStep .authPage 7) :=
    follows_check (by decide) (by decide) (fun _ => rfl) (ignoresPlace_doCrc16Check .page) (doCrc16Check_res .page)
      pageRow (pageRow.next fun _ => rfl)
  have hcheckMac : Follows authPhases (toStep .authPage 9) checkMac toVerdict :=
    follows_check (by decide) (by decide) (fun _ => rfl) (ignoresPlace_doCrc16Check .mac) (doCrc16Check_res .mac)
      macRow (macRow.last (fun _ => rfl) (fun _ h => h) fun _ hphase _ => phaseEnd_authPage hphase)
  exact ((((follows_doSelectSkip (by decide) (by decide)).thenOk follows_readPage).thenOk hcheckPage).thenOk
    follows_readMac).thenOk hcheckMac

/-- `SOFT_RESET_TXN` (R192). -/
theorem follows_doSoftResetTxn :
    Follows [.soft] (toStep .soft 0) doSoftResetTxn (goTo (.finish .ok .none .nothing)) := by
  have hsend : Follows [.soft] (toStep .soft 2) (doWblock (.const Config.cmdSoftReset) 7) (toStep .soft 3) :=
    follows_wblock (count := 7) (by decide) (by decide) (fun _ => rfl) rfl (by decide) ⟨fun _ => rfl, fun _ => rfl⟩
  have hanswer : Follows [.soft] (toStep .soft 3) (doRblock .mbuf 2) (toStep .soft 4) :=
    follows_rblock (count := 2) (by decide) (by decide) (fun _ => rfl) rfl (by decide) ⟨fun _ => rfl, fun _ => rfl⟩
  have hcheck : Follows [.soft] (toStep .soft 4) checkSoft (toStep .soft 5) :=
    follows_check (by decide) (by decide) (fun _ => rfl) (ignoresPlace_doCrc16Check .soft) (doCrc16Check_res .soft)
      softRow (softRow.next fun _ => rfl)
  have hsettle : Follows [.soft] (toStep .soft 5) settle (goTo (.finish .ok .none .nothing)) :=
    follows_row (operation := fun p => .delay p.tSoftSettle) (by decide) (by decide) (fun _ => rfl) (fun _ _ => rfl)
      (fun _ => rfl) (PlainRow.last ⟨fun _ => rfl, fun _ => rfl⟩ (fun _ => rfl) fun _ => phaseEnd_soft)
  exact (((follows_doSelectSkip (by decide) (by decide)).thenOk (hsend.comp (doWblock_res _ _) hanswer)).thenOk
    hcheck).thenOk hsettle

/-- The verdict on the MAC (R246, R248). -/
theorem follows_judgeMac : Follows authPhases toVerdict judgeMac (goTo (.finish .ok .none .trusted)) := by
  intro w t hok hbeside hrunning
  have hmac : IgnoresPlace fun s => doVerifyMac (doComputeMac s) := fun _ _ => rfl
  have hframe := (operationFrame_doComputeMac t).trans (operationFrame_doVerifyMac _)
  have hrun : Running (toVerdict t) := ⟨hframe.busy.trans hrunning.busy, hframe.inputs ▸ hrunning.calm⟩
  have hat := (hmac.respects hbeside).trans ((beside_goTo .authVerify _).trans (beside_popInput (toVerdict t)))
  have hstep : RunStep (toVerdict t) (verdict (popInput (toVerdict t))) :=
    ⟨hrun, hrun.step_eq.trans (sequencerStep_authVerify rfl)⟩
  have hphase : (popInput (toVerdict t)).seq.phase ∈ authPhases := by
    change Phase.authVerify ∈ authPhases
    decide
  have hwres : (doVerifyMac (doComputeMac w)).res = .ok := by rw [doVerifyMac_res, doComputeMac_res, hok]
  cases hflag : (doVerifyMac (doComputeMac w)).flags.macOk with
  | true =>
    rw [judgeMac, require_true (flag := fun t => t.flags.macOk) _ hflag]
    rw [verdict, if_pos ((congrArg Flags.macOk hat.flags).trans hflag)] at hstep
    exact ⟨_, hat, hrun.popped, hphase, .inl ⟨hwres, .single hstep⟩⟩
  | false =>
    have hbad : (popInput (toVerdict t)).flags.macOk = false := (congrArg Flags.macOk hat.flags).trans hflag
    rw [judgeMac, require_false (flag := fun t => t.flags.macOk) _ hflag]
    rw [verdict, hbad, if_neg Bool.false_ne_true] at hstep
    exact ⟨_, (beside_res (.failed .macMismatch) _).symm.trans hat, hrun.popped, hphase,
      .inr ⟨_, rfl, .single hstep⟩⟩

/-! #### A retried unit (R241, R276) -/

theorem restartUnit_authPhases {t : State} (h : t.seq.phase ∈ authPhases) :
    restartUnit t = toStep .authChallenge 0 (drawChallenge (setAtt (t.seq.att + 1) t)) := by
  simp only [authPhases, List.mem_cons, List.not_mem_nil, or_false] at h
  obtain h | h | h := h <;> simp only [restartUnit, h] <;> rfl

theorem OperationFrame.att {s t : State} (h : OperationFrame s t) : t.seq.att = s.seq.att := by
  obtain ⟨-, -, -, -, hatt, -⟩ := h.position
  exact hatt

theorem OperationFrame.cmd {s t : State} (h : OperationFrame s t) : t.seq.cmd = s.seq.cmd := by
  obtain ⟨-, hcmd, -⟩ := h.position
  exact hcmd

/-- A retried unit: every attempt enters and does f, and a failure in the unit leads to the next attempt's entry. -/
structure RetriedUnit (unit : List Phase) (here enter f there : State → State) : Prop where
  follows : Follows unit here f there
  fresh : ∀ s, f (succeed s) = f s
  att : ∀ s, (f (enter s)).seq.att = s.seq.att
  enters : IgnoresPlace enter
  frame : ∀ s, TransitionFrame s (enter s)
  restarts : ∀ t, t.seq.phase ∈ unit → restartUnit t = here (enter (setAtt (t.seq.att + 1) t))

/-- The sequencer in q comes to stand beside r, which a unit ended in: it is `there` after a success, and in `FINISH`
after a failure. -/
def Leaves (unit : List Phase) (q r : State) (there : State → State) : Prop :=
  ∃ u, Beside r u ∧ Running u ∧ u.seq.phase ∈ unit ∧
    (r.res = .ok ∧ Runs q (there u) ∨
      ∃ e, r.res = .failed e ∧ Runs q (goTo (.finish (failureStatus e) (failureCause e) .nothing) u))

theorem Leaves.of_runs {unit : List Phase} {p q r : State} {there : State → State} (hruns : Runs p q)
    (h : Leaves unit q r there) : Leaves unit p r there := by
  obtain ⟨u, hu, hurun, huphase, hend⟩ := h
  exact ⟨u, hu, hurun, huphase, hend.imp (fun ⟨h, k⟩ => ⟨h, hruns.trans k⟩) fun ⟨e, h, k⟩ => ⟨e, h, hruns.trans k⟩⟩

section
variable {unit : List Phase} {here enter f there : State → State} (h : RetriedUnit unit here enter f there)
include h

theorem RetriedUnit.attempt_arrives {w t : State} (hbeside : Beside w t) (hrunning : Running t) :
    Arrives unit (here (enter (setAtt (t.seq.att + 1) t))) (attempt (fun s => f (enter s)) w) there := by
  have hset : Beside (setAtt (w.seq.att + 1) w) (setAtt (t.seq.att + 1) t) := by
    rw [hbeside.att]
    obtain ⟨p, rfl⟩ := hbeside
    exact ⟨p, rfl⟩
  have hentered := (beside_res .ok _).symm.trans (h.enters.respects hset)
  have hrun : Running (enter (setAtt (t.seq.att + 1) t)) := (h.frame _).running ⟨hrunning.busy, hrunning.calm⟩
  rw [attempt, ← h.fresh]
  exact h.follows _ _ rfl hentered hrun

/-- The attempts left of a unit (R241): the next one follows a failure that may be retried, while there is one. -/
theorem RetriedUnit.retryFrom_leaves (left : Nat) {w t : State} (hatt : w.seq.att.toNat + left = 2)
    (hbeside : Beside w t) (hrunning : Running t) :
    Leaves unit (here (enter (setAtt (t.seq.att + 1) t))) (retryFrom (fun s => f (enter s)) (left + 1) w) there := by
  induction left generalizing w t with
  | zero =>
    obtain ⟨u, hu, hurun, huphase, hend⟩ := h.attempt_arrives hbeside hrunning
    have hlast : u.seq.att = 3 := by
      rw [hu.att, attempt, h.att, setAtt_seq]
      exact BitVec.eq_of_toNat_eq (by rw [att_succ_toNat (by rw [Config.nAttempts]; omega)]; simpa using hatt)
    rw [retryFrom_one]
    refine ⟨u, hu, hurun, huphase, hend.imp_right fun ⟨e, hfe, hruns⟩ => ⟨e, hfe, ?_⟩⟩
    rwa [takeFailure_final (.inr hlast)] at hruns
  | succ left ih =>
    obtain ⟨u, hu, hurun, huphase, hend⟩ := h.attempt_arrives hbeside hrunning
    have hnext : (attempt (fun s => f (enter s)) w).seq.att.toNat = w.seq.att.toNat + 1 := by
      rw [attempt, h.att, setAtt_seq]
      exact att_succ_toNat (by rw [Config.nAttempts]; omega)
    obtain ⟨hok, hruns⟩ | ⟨e, hfe, hruns⟩ := hend
    · rw [retryFrom_of_not_retries _ (retries_of_ok hok)]
      exact ⟨u, hu, hurun, huphase, .inl ⟨hok, hruns⟩⟩
    · have hretries := retries_of_failed hfe
      rw [← hu.cfg] at hretries
      cases hretry : retryable u.cfg e with
      | true =>
        rw [takeFailure_retried hretry (by rw [hu.att, hnext]; omega), h.restarts u huphase] at hruns
        rw [retryFrom_of_retries _ (hretries.trans hretry)]
        exact (ih (by omega) hu hurun).of_runs hruns
      | false =>
        rw [takeFailure_final (.inl hretry)] at hruns
        rw [retryFrom_of_not_retries _ (hretries.trans hretry)]
        exact ⟨u, hu, hurun, huphase, .inr ⟨e, hfe, hruns⟩⟩

theorem RetriedUnit.retry_leaves {w t : State} (hbeside : Beside w t) (hrunning : Running t) :
    Leaves unit (here (enter (setAtt 1 t))) (retry (fun s => f (enter s)) w) there := by
  have hset : IgnoresPlace (setAtt 0) := fun _ _ => rfl
  exact h.retryFrom_leaves 2 (w := setAtt 0 w) (t := setAtt 0 t) rfl (hset.respects hbeside)
    ⟨hrunning.busy, hrunning.calm⟩

end

theorem retriedUnit_identifier : RetriedUnit [.idPhase] (toStep .idPhase 0) id doReadIdentifier phaseEnd where
  follows := follows_doReadIdentifier
  fresh _ := rfl
  att s := ((operationFrame_gate s).trans (operationFrame_doReadIdentifier s)).att
  enters _ _ := rfl
  frame := .refl
  restarts _ h := restartUnit_idPhase (List.mem_singleton.mp h)

theorem retriedUnit_softReset :
    RetriedUnit [.soft] (toStep .soft 0) id doSoftResetTxn (goTo (.finish .ok .none .nothing)) where
  follows := follows_doSoftResetTxn
  fresh _ := rfl
  att s := ((operationFrame_gate s).trans (operationFrame_doSoftResetTxn s)).att
  enters _ _ := rfl
  frame := .refl
  restarts _ h := restartUnit_soft (List.mem_singleton.mp h)

/-- An authentication attempt after its draw (R246). -/
def authAfterDraw (s : State) : State := thenOk judgeMac (thenOk doReadAuthPage (doWriteChallenge s))

theorem retriedUnit_authentication :
    RetriedUnit authPhases (toStep .authChallenge 0) drawChallenge authAfterDraw
      (goTo (.finish .ok .none .trusted)) where
  follows := (follows_doWriteChallenge.thenOk follows_doReadAuthPage).thenOk follows_judgeMac
  fresh _ := rfl
  att s := (operationFrame_authAttempt s).att
  enters _ _ := rfl
  frame s := ⟨(operationFrame_drawChallenge s).toPortFrame, rfl⟩
  restarts _ h := restartUnit_authPhases h

/-! #### The commands (R242 to R250) -/

/-- The sequencer in q comes to the end of its command in a state that is r but for the host's inputs. -/
def EndsIn (q r : State) : Prop := ∃ t, Runs q t ∧ t.flags.busy = false ∧ withoutInputs t = withoutInputs r

/-- `FINISH` (R250). -/
theorem endsIn_finish {q r u : State} {st : Status} {c : Cause} {out : Output} (hbeside : Beside r u)
    (hrunning : Running u) (hruns : Runs q (goTo (.finish st c out) u)) : EndsIn q (finish st c out r) := by
  have hrun : Running (goTo (.finish st c out) u) := ⟨hrunning.busy, hrunning.calm⟩
  have hstep : RunStep (goTo (.finish st c out) u) (finish st c out (popInput (goTo (.finish st c out) u))) :=
    ⟨hrun, hrun.step_eq.trans (sequencerStep_finish rfl)⟩
  refine ⟨_, hruns.tail hstep, rfl, ?_⟩
  obtain ⟨p, rfl⟩ := hbeside
  rfl

/-- A command's last unit (R242 to R244). -/
theorem Leaves.conclude {unit : List Phase} {q r : State} {there : State → State} {out : Output}
    (h : Leaves unit q r there)
    (hthere : ∀ u, Beside r u → u.seq.phase ∈ unit → there u = goTo (.finish .ok .none out) u) :
    EndsIn q (conclude out r) := by
  obtain ⟨u, hu, hurun, huphase, ⟨hok, hruns⟩ | ⟨e, hfe, hruns⟩⟩ := h
  · rw [hthere u hu huphase] at hruns
    rw [conclude_of_ok out hok]
    exact endsIn_finish hu hurun hruns
  · rw [conclude_of_failed out hfe]
    exact endsIn_finish hu hurun hruns

theorem beside_accept_popInput (cmd : BitVec 2) (s : State) : Beside (accept cmd s) (accept cmd (popInput s)) :=
  ⟨⟨firstPhase cmd, 0, .none, s.env.inputs.tail⟩, rfl⟩

/-- What no attempt changes, a retried unit does not. -/
theorem retry_keeps {α : Type} {proj : State → α} {body : State → State} (hset : ∀ n u, proj (setAtt n u) = proj u)
    (hbody : ∀ u, proj (body u) = proj u) (s : State) : proj (retry body s) = proj s := by
  have hfrom : ∀ left u, proj (retryFrom body left u) = proj u := by
    intro left
    induction left with
    | zero => exact fun _ => rfl
    | succ left ih =>
      intro u
      have htried := (hbody (setAtt (u.seq.att + 1) u)).trans (hset _ u)
      obtain heq | heq := retryFrom_succ_cases body left u
      · rw [heq, htried]
      · rw [heq, ih, htried]
  exact (hfrom _ _).trans (hset 0 s)

theorem retry_doReadIdentifier_cmd (s : State) : (retry doReadIdentifier s).seq.cmd = s.seq.cmd :=
  retry_keeps (proj := fun u => u.seq.cmd) (fun _ _ => rfl)
    (fun u => ((operationFrame_gate u).trans (operationFrame_doReadIdentifier u)).cmd) s

theorem runGetIdentifier_endsIn {s : State} (hrun : Running (accept 1 (popInput s))) :
    EndsIn (accept 1 (popInput s)) (runGetIdentifier s) :=
  (retriedUnit_identifier.retry_leaves (beside_accept_popInput 1 s) hrun).conclude fun _ hu huphase =>
    phaseEnd_getIdentifier (List.mem_singleton.mp huphase) (hu.cmd.trans (retry_doReadIdentifier_cmd _))

theorem runSoftReset_endsIn {s : State} (hrun : Running (accept 3 (popInput s))) :
    EndsIn (accept 3 (popInput s)) (runSoftReset s) :=
  (retriedUnit_softReset.retry_leaves (beside_accept_popInput 3 s) hrun).conclude fun _ _ _ => rfl

theorem authenticateFrom_of_ok {found : State} (h : found.res = .ok) :
    authenticateFrom found = conclude .trusted (retry authAttempt (doDeriveSecret found)) := by
  simp only [authenticateFrom, h]

theorem authenticateFrom_of_failed {found : State} {f : Failure} (h : found.res = .failed f) :
    authenticateFrom found = conclude .nothing found := by
  simp only [authenticateFrom, h]

/-- The secret derived, and the authentication loop run, from the end of the identifier phase (R243, R253). -/
theorem authentication_leaves {found u : State} (hbeside : Beside found u) (hrunning : Running u) :
    Leaves authPhases (toStep .derive 0 u) (retry authAttempt (doDeriveSecret found))
      (goTo (.finish .ok .none .trusted)) := by
  obtain ⟨hderive, -⟩ := challengePhaseFollowsTheTables
  have hplace : IgnoresPlace doDeriveSecret := fun _ _ => rfl
  obtain ⟨v, hv, hvrun, -, hstep⟩ :=
    step_beside (by decide) (fun _ => rfl) hplace.respects hderive hbeside hrunning
  exact (retriedUnit_authentication.retry_leaves hv hvrun).of_runs (.single (hstep trivial))

theorem runAuthenticate_endsIn {s : State} (hrun : Running (accept 2 (popInput s))) :
    EndsIn (accept 2 (popInput s)) (runAuthenticate s) := by
  have hcmd := retry_doReadIdentifier_cmd (accept 2 s)
  obtain ⟨u, hu, hurun, huphase, ⟨hok, hruns⟩ | ⟨e, hfe, hruns⟩⟩ :=
    retriedUnit_identifier.retry_leaves (beside_accept_popInput 2 s) hrun
  · rw [phaseEnd_authenticate (List.mem_singleton.mp huphase) (hu.cmd.trans hcmd)] at hruns
    have hend := ((authentication_leaves hu hurun).of_runs hruns).conclude (out := .trusted) fun _ _ _ => rfl
    rw [runAuthenticate]
    exact (authenticateFrom_of_ok hok).symm ▸ hend
  · have hend := endsIn_finish hu hurun hruns
    rw [← conclude_of_failed .nothing hfe] at hend
    rw [runAuthenticate]
    exact (authenticateFrom_of_failed hfe).symm ▸ hend

/-- The codes a block accepts (R91). -/
theorem cmd_cases {cmd : BitVec 2} (h : cmd ≠ 0) : cmd = 1 ∨ cmd = 2 ∨ cmd = 3 := by
  revert cmd
  decide

/-- A command's acceptance leads to the end its pseudocode gives. -/
theorem command_endsIn {s u : State} {cmd : BitVec 2} (hidle : s.flags.busy = false) (hcmd : cmd ≠ 0)
    (hexec : exec (decodeHc cmd) s = .next u) (hrun : Running (accept cmd (popInput s))) :
    EndsIn (accept cmd (popInput s)) u := by
  obtain rfl | rfl | rfl := cmd_cases hcmd
  · cases hexec
    rw [whenIdle_of_idle _ hidle]
    exact runGetIdentifier_endsIn hrun
  · cases hexec
    rw [whenIdle_of_idle _ hidle]
    exact runAuthenticate_endsIn hrun
  · cases hexec
    rw [whenIdle_of_idle _ hidle]
    exact runSoftReset_endsIn hrun

/-- Settles O54: from the acceptance on the sequencer stands beside the pseudocode at the end of every operation, and
the run it makes has no more steps than `stepsLeft` counts. -/
theorem startedCommandRunsAsItsPseudocode : Obligations.StartedCommandRunsAsItsPseudocode := by
  rintro s u cmd rest _ hinput hcalm hidle rfl hcmd hexec
  have hstep : step s = .next (accept cmd (popInput s)) := by
    rw [step_of_start hinput, requestStep_accepted (s := popInput s) hidle hcmd]
  have hrun : Running (accept cmd (popInput s)) := ⟨rfl, by rw [accept_env, popInput, hinput]; exact hcalm⟩
  have hpos := legalPosition_accept hcmd (popInput s)
  obtain ⟨t, hruns, hend, hsame⟩ := command_endsIn hidle hcmd hexec hrun
  obtain ⟨k, hk, hbusyUntil⟩ := hruns.busyUntil hpos
  have hkpos := hbusyUntil.pos rfl hend
  obtain ⟨hcore, hbusy⟩ := hbusyUntil
  have hle := stepsLeft_le hpos
  refine ⟨k + 1, t, by omega, by omega, (core_run_succ hstep k).trans hcore, hsame, fun j hj hjk => ?_⟩
  obtain ⟨j, rfl⟩ := Nat.exists_eq_succ_of_ne_zero hj.ne'
  rw [Nat.succ_eq_add_one, core_run_succ hstep]
  exact hbusy j (by omega)

end Sys2Proof.Proofs
end

/-! ### The longest runs (R252, R254, R316, R318)

What an operation, an attempt or a unit costs, in microseconds and in challenges drawn, where nothing stands between two
operations (`T_GAP` = 0). -/

section
namespace Sys2Proof.Proofs

open Sys2Proof.Machine Sys2Proof.Safety

/-! #### Waits and draws of a trace -/

theorem duration_reverse (tr : List Event) : duration tr.reverse = duration tr := by
  induction tr with
  | nil => rfl
  | cons e tr ih => cases e <;> simp [duration_append, ih, Nat.add_comm]

theorem drawsIn_reverse (tr : List Event) : drawsIn tr.reverse = drawsIn tr := List.countP_reverse

theorem drawsIn_append (es fs : List Event) : drawsIn (es ++ fs) = drawsIn es + drawsIn fs := List.countP_append

theorem drawsIn_pushEvent (e : Event) (tr : List Event) : drawsIn (pushEvent e tr) = drawsIn tr + drawsIn [e] := by
  cases e with
  | W n =>
    rw [pushEvent_W]
    unfold pushWait
    split
    · rfl
    · split <;> simp [drawsIn]
  | L | Z | S v | C bytes => simp [drawsIn]

theorem drawsIn_appendEvents (tr es : List Event) : drawsIn (appendEvents tr es) = drawsIn tr + drawsIn es := by
  induction es generalizing tr with
  | nil => rfl
  | cons e es ih =>
    have hcons : drawsIn (e :: es) = drawsIn [e] + drawsIn es := drawsIn_append [e] es
    rw [appendEvents_cons, ih, drawsIn_pushEvent, hcons, Nat.add_assoc]

theorem duration_flatten_eq {ops : List (List Event)} {us : Nat} (h : ∀ op ∈ ops, duration op = us) :
    duration ops.flatten = ops.length * us := by
  induction ops with
  | nil => simp
  | cons op ops ih =>
    obtain ⟨hop, hops⟩ := List.forall_mem_cons.mp h
    rw [List.flatten_cons, duration_append, hop, ih hops, List.length_cons, Nat.succ_mul, Nat.add_comm]

theorem drawsIn_flatten_eq_zero {ops : List (List Event)} (h : ∀ op ∈ ops, drawsIn op = 0) :
    drawsIn ops.flatten = 0 := by
  induction ops with
  | nil => rfl
  | cons op ops ih =>
    obtain ⟨hop, hops⟩ := List.forall_mem_cons.mp h
    rw [List.flatten_cons, drawsIn_append, hop, ih hops]

/-! #### The operations (R316) -/

/-- These operations take so many microseconds, and draw no challenge. -/
def Takes (ops : List (List Event)) (us : Nat) : Prop := duration ops.flatten = us ∧ drawsIn ops.flatten = 0

theorem Takes.append {as bs : List (List Event)} {m n : Nat} (h : Takes as m) (k : Takes bs n) :
    Takes (as ++ bs) (m + n) := by
  obtain ⟨htime, hdraws⟩ := h
  obtain ⟨htime', hdraws'⟩ := k
  refine ⟨?_, ?_⟩
  · rw [List.flatten_append, duration_append, htime, htime']
  · rw [List.flatten_append, drawsIn_append, hdraws, hdraws']

theorem takes_of_forall {ops : List (List Event)} {us : Nat} (h : ∀ op ∈ ops, duration op = us ∧ drawsIn op = 0) :
    Takes ops (ops.length * us) :=
  ⟨duration_flatten_eq fun op hop => (h op hop).1, drawsIn_flatten_eq_zero fun op hop => (h op hop).2⟩

theorem takes_reset (v : Bool) : Takes [resetEvents v] 960 := ⟨rfl, rfl⟩

theorem takes_wait (us : Nat) : Takes [[.W us]] us := ⟨rfl, rfl⟩

theorem takes_readOps (l : Line) (k n : Nat) : Takes (readOps l k n) (n * 70) := by
  have h := takes_of_forall (ops := readOps l k n) (us := 70) fun op hop => by
    obtain ⟨j, -, rfl⟩ := List.mem_map.mp hop
    exact ⟨rfl, rfl⟩
  rwa [readOps, List.length_map, List.length_range] at h

theorem takes_byteOps (v : Byte) : Takes (byteOps v) 560 := by
  have h := takes_of_forall (ops := byteOps v) (us := 70) fun op hop => by
    obtain ⟨k, -, rfl⟩ := List.mem_map.mp hop
    cases v.getLsbD k <;> exact ⟨rfl, rfl⟩
  rwa [byteOps, List.length_map, List.length_range] at h

theorem takes_bytesOps (vs : List Byte) : Takes (bytesOps vs) (vs.length * 560) := by
  induction vs with
  | nil => exact ⟨rfl, rfl⟩
  | cons v vs ih =>
    have h := (takes_byteOps v).append ih
    rwa [Nat.add_comm, ← Nat.succ_mul] at h

/-! #### The transactions (R316) -/

theorem takes_identifierOps (l : Line) (k : Nat) : Takes (identifierOps l k) 6000 :=
  (takes_reset _).append ((takes_byteOps _).append (takes_readOps l (k + 1) 64))

theorem takes_challengeOps (l : Line) (k : Nat) (chal : Vector Byte 12) : Takes (challengeOps l k chal) 15520 := by
  have hsent := takes_bytesOps ([0xCC, 0x0F] ++ chal.toList)
  rw [List.length_append, Vector.length_toList] at hsent
  exact (takes_reset _).append (hsent.append (takes_readOps l (k + 1) 96))

theorem takes_pageOps (l : Line) (k : Nat) : Takes (pageOps l k 31) 20560 := by
  have hsent : Takes (bytesOps [0xCC, 0xA5, 0x00, 0x00]) 2240 := takes_bytesOps _
  have hread : Takes (readOps l (k + 1) (8 * 31)) 17360 := takes_readOps _ _ _
  exact (takes_reset _).append (hsent.append hread)

theorem takes_macOps (l : Line) (k : Nat) : Takes (macOps l k) 14320 :=
  (takes_wait 2000).append (takes_readOps l k 176)

theorem takes_softOps (l : Line) (k : Nat) : Takes (softOps l k) 6560 := by
  have hsent : Takes (bytesOps [0xCC, 0x55, 0x00, 0x00, 0xFF, 0xFF, 0xFF, 0xFF]) 4480 := takes_bytesOps _
  exact (takes_reset _).append (hsent.append (takes_readOps l (k + 1) 16))

/-- From s to t the trace grows by at most so many microseconds and so many draws, every draw counted. -/
structure Costs (s t : State) (us draws : Nat) : Prop where
  cfg : t.cfg = s.cfg
  time : duration (traceOf t) ≤ duration (traceOf s) + us
  drawn : drawsIn (traceOf t) ≤ drawsIn (traceOf s) + draws
  counted : t.env.chalNo + drawsIn (traceOf s) = s.env.chalNo + drawsIn (traceOf t)

theorem Costs.trans {s t u : State} {us us' draws draws' : Nat} (h : Costs s t us draws) (k : Costs t u us' draws') :
    Costs s u (us + us') (draws + draws') where
  cfg := k.cfg.trans h.cfg
  time := by have := h.time; have := k.time; omega
  drawn := by have := h.drawn; have := k.drawn; omega
  counted := by have := h.counted; have := k.counted; omega

theorem Costs.mono {s t : State} {us us' draws draws' : Nat} (h : Costs s t us draws) (hus : us ≤ us')
    (hdraws : draws ≤ draws') : Costs s t us' draws' :=
  ⟨h.cfg, h.time.trans (by omega), h.drawn.trans (by omega), h.counted⟩

theorem costs_of_sameTrace {s t : State} (hcfg : t.cfg = s.cfg) (htrace : t.line.traceRev = s.line.traceRev)
    (henv : t.env = s.env) : Costs s t 0 0 := by
  have hsame : traceOf t = traceOf s := congrArg List.reverse htrace
  exact ⟨hcfg, by rw [hsame]; exact le_rfl, by rw [hsame]; exact le_rfl, by rw [hsame, henv]⟩

/-- Operations on the line cost what they take. -/
theorem Transacted.costs {s t : State} {ops : List (List Event)} {k us : Nat} (h : Transacted s t ops k)
    (hgap : s.cfg.tGap = .fixed 0) (hops : Takes ops us) : Costs s t us 0 := by
  have htrace := h.line.trace
  obtain ⟨htime, hdraws⟩ := hops
  rw [hgap, withGaps_fixed_zero] at htrace
  have hduration : duration (traceOf t) = duration (traceOf s) + us := by
    rw [traceOf, traceOf, duration_reverse, duration_reverse, htrace, duration_appendEvents, htime]
  have hdrawn : drawsIn (traceOf t) = drawsIn (traceOf s) := by
    rw [traceOf, traceOf, drawsIn_reverse, drawsIn_reverse, htrace, drawsIn_appendEvents, hdraws, Nat.add_zero]
  exact ⟨h.cfg, hduration.le, hdrawn.le, by rw [h.env, hdrawn]⟩

theorem costs_drawChallenge (s : State) : Costs s (drawChallenge s) 0 1 := by
  have htrace : traceOf (drawChallenge s) = traceOf s ++ [.C (challengeAnswer s)] := by simp [traceOf]
  have hdrawn : drawsIn (traceOf (drawChallenge s)) = drawsIn (traceOf s) + 1 := by
    rw [htrace, drawsIn_append]
    rfl
  refine ⟨rfl, ?_, hdrawn.le, ?_⟩
  · rw [htrace, duration_append]
    exact le_rfl
  · rw [hdrawn, drawChallenge_env, Nat.add_right_comm, Nat.add_assoc]

/-- The parameters R316 and R318 speak of. -/
structure DefaultTimes (p : Config.Params) : Prop where
  tGap : p.tGap = .fixed 0
  nPageRead : p.nPageRead = .read31
  tSoftSettle : p.tSoftSettle = 100000

theorem DefaultTimes.of_eq {p q : Config.Params} (h : DefaultTimes p) (heq : q = p) : DefaultTimes q := heq ▸ h

/-- An absent peripheral costs the reset pulse. -/
theorem costs_gate {s : State} (h : DefaultTimes s.cfg) : Costs s (gate s) 960 0 :=
  (transacted_gate s).costs h.tGap (takes_reset _)

theorem costs_doReadIdentifier {s : State} (h : DefaultTimes s.cfg) : Costs s (doReadIdentifier s) 6000 0 := by
  cases hanswer : answer s.line 0 with
  | true => exact doReadIdentifier_absent hanswer ▸ (costs_gate h).mono (by decide) le_rfl
  | false =>
    rw [doReadIdentifier_present hanswer]
    exact (transacted_identifierRead s).costs h.tGap (takes_identifierOps _ _)

theorem transacted_challengeCompared (s : State) :
    Transacted s (challengeCompared s) (challengeOps s.line 0 s.session.chal) 97 := by
  unfold challengeCompared challengeExchanged
  exact ⟨rfl, rfl, rfl, rfl, rfl, challengeLine_after _ _ _⟩

theorem costs_doWriteChallenge {s : State} (h : DefaultTimes s.cfg) : Costs s (doWriteChallenge s) 15520 0 := by
  cases hanswer : answer s.line 0 with
  | true => exact doWriteChallenge_absent hanswer ▸ (costs_gate h).mono (by decide) le_rfl
  | false =>
    rw [doWriteChallenge_present hanswer]
    exact (transacted_challengeCompared s).costs h.tGap (takes_challengeOps _ _ _)

theorem transacted_pageJudged (s : State) :
    Transacted s (pageJudged s) (pageOps s.line 0 s.cfg.nPageRead.count.toNat)
      (1 + 8 * s.cfg.nPageRead.count.toNat) := by
  unfold pageJudged pageRead
  exact ⟨rfl, rfl, rfl, rfl, rfl, pageLine_after _ _ _⟩

theorem transacted_macFrameJudged (s : State) :
    Transacted s (macFrameJudged s)
      (pageOps s.line 0 s.cfg.nPageRead.count.toNat ++ macOps s.line (1 + 8 * s.cfg.nPageRead.count.toNat))
      (177 + 8 * s.cfg.nPageRead.count.toNat) := by
  unfold macFrameJudged
  exact ⟨rfl, rfl, rfl, rfl, rfl, bothFrames_after s.cfg.tGap s.cfg.nPageRead.count.toNat s.line⟩

theorem costs_doReadAuthPage {s : State} (h : DefaultTimes s.cfg) : Costs s (doReadAuthPage s) 34880 0 := by
  have hpage := transacted_pageJudged s
  have hmac := transacted_macFrameJudged s
  have hcount : s.cfg.nPageRead.count.toNat = 31 := by rw [h.nPageRead]; rfl
  rw [hcount] at hpage hmac
  cases hanswer : answer s.line 0 with
  | true => exact doReadAuthPage_absent hanswer ▸ (costs_gate h).mono (by decide) le_rfl
  | false =>
    by_cases hcrc : pageCrc s = Config.crc16Residual
    · rw [doReadAuthPage_goodPage hanswer hcrc]
      exact hmac.costs h.tGap ((takes_pageOps _ _).append (takes_macOps _ _))
    · rw [doReadAuthPage_badPage hanswer hcrc]
      exact (hpage.costs h.tGap (takes_pageOps _ _)).mono (by decide) le_rfl

/-- The settle delay follows a success only, which ends the command (R192). -/
theorem costs_doSoftResetTxn {s : State} (h : DefaultTimes s.cfg) :
    Costs s (doSoftResetTxn s) (if retries (doSoftResetTxn s) then 6560 else 6560 + 100000) 0 := by
  have hanswered := (transacted_softAnswered s).costs h.tGap (takes_softOps _ _)
  cases hanswer : answer s.line 0 with
  | true =>
    rw [doSoftResetTxn_absent hanswer]
    exact (costs_gate h).mono (by split <;> decide) le_rfl
  | false =>
    rw [doSoftResetTxn_present hanswer]
    generalize softAnswered s = answered at hanswered
    obtain ⟨hok, heq⟩ | ⟨-, heq⟩ := thenOk_cases settle answered
    · have htime : answered.cfg.tSoftSettle.toNat = 100000 := by rw [hanswered.cfg, h.tSoftSettle]; rfl
      have hsettled := (transacted_settle answered).costs (by rw [hanswered.cfg, h.tGap]) (takes_wait _)
      rw [htime] at hsettled
      rw [heq, retries_of_ok (s := settle answered) hok]
      exact hanswered.trans hsettled
    · rw [heq]
      exact hanswered.mono (by split <;> decide) le_rfl

theorem costs_judgeMac (s : State) : Costs s (judgeMac s) 0 0 := by
  obtain ⟨sha, heq⟩ := judgeMac_eq s
  rw [heq]
  unfold macJudged
  exact costs_of_sameTrace rfl rfl rfl

theorem costs_thenOk {s t : State} {f : State → State} {us us' draws : Nat} (h : Costs s t us draws)
    (hf : Costs t (f t) us' 0) : Costs s (thenOk f t) (us + us') draws := by
  obtain ⟨-, heq⟩ | ⟨-, heq⟩ := thenOk_cases f t
  · rw [heq]
    exact h.trans hf
  · rw [heq]
    exact h.mono (Nat.le_add_right _ _) le_rfl

theorem costs_authAttempt {s : State} (h : DefaultTimes s.cfg) : Costs s (authAttempt s) 50400 1 := by
  have hchallenge := (costs_drawChallenge s).trans (costs_doWriteChallenge (s := drawChallenge s) h)
  have hpage := costs_thenOk hchallenge (costs_doReadAuthPage (h.of_eq hchallenge.cfg))
  exact costs_thenOk hpage (costs_judgeMac _)

/-! #### A retried unit (R241) -/

/-- A unit whose attempts cost at most so much, and the one that ends it at most so much more. -/
theorem costs_retryFrom {body : State → State} {us extra draws : Nat}
    (hbody : ∀ u, DefaultTimes u.cfg → Costs u (body u) (if retries (body u) then us else us + extra) draws)
    (left : Nat) {s : State} (h : DefaultTimes s.cfg) :
    Costs s (retryFrom body left s) (left * us + extra) (left * draws) := by
  induction left generalizing s with
  | zero => exact (costs_of_sameTrace rfl rfl rfl).mono (Nat.zero_le _) (Nat.zero_le _)
  | succ left ih =>
    have hset : Costs s (setAtt (s.seq.att + 1) s) 0 0 := costs_of_sameTrace rfl rfl rfl
    have htried := hset.trans (hbody (setAtt (s.seq.att + 1) s) h)
    rw [retryFrom_succ, Nat.succ_mul, Nat.succ_mul]
    change Costs s (if retries (attempt body s) then _ else _) _ _
    split
    next hgo =>
      have hmore := htried.trans (ih (h.of_eq htried.cfg))
      change retries (body (setAtt (s.seq.att + 1) s)) = true at hgo
      rw [if_pos hgo] at hmore
      exact hmore.mono (by omega) (by omega)
    next hstop => exact htried.mono (by split <;> omega) (by omega)

theorem costs_retry {body : State → State} {us extra draws : Nat}
    (hbody : ∀ u, DefaultTimes u.cfg → Costs u (body u) (if retries (body u) then us else us + extra) draws)
    {s : State} (h : DefaultTimes s.cfg) : Costs s (retry body s) (3 * us + extra) (3 * draws) := by
  have hset : Costs s (setAtt 0 s) 0 0 := costs_of_sameTrace rfl rfl rfl
  exact (hset.trans (costs_retryFrom hbody 3 (s := setAtt 0 s) h)).mono (by omega) (by omega)

theorem costs_retry_doReadIdentifier {s : State} (h : DefaultTimes s.cfg) :
    Costs s (retry doReadIdentifier s) 18000 0 :=
  costs_retry (us := 6000) (extra := 0) (draws := 0)
    (fun _ hu => (costs_doReadIdentifier hu).mono (by split <;> exact le_rfl) le_rfl) h

theorem costs_retry_doSoftResetTxn {s : State} (h : DefaultTimes s.cfg) :
    Costs s (retry doSoftResetTxn s) 119680 0 :=
  costs_retry (us := 6560) (extra := 100000) (draws := 0) (fun _ => costs_doSoftResetTxn) h

theorem costs_retry_authAttempt {s : State} (h : DefaultTimes s.cfg) :
    Costs s (retry authAttempt s) 151200 3 :=
  costs_retry (us := 50400) (extra := 0) (draws := 1)
    (fun _ hu => (costs_authAttempt hu).mono (by split <;> exact le_rfl) le_rfl) h

/-! #### The commands -/

theorem costs_conclude (out : Output) (s : State) : Costs s (conclude out s) 0 0 := by
  unfold conclude
  split <;> exact costs_of_sameTrace rfl rfl rfl

theorem costs_authenticateFrom {s : State} (h : DefaultTimes s.cfg) : Costs s (authenticateFrom s) 151200 3 := by
  unfold authenticateFrom
  split
  · have hderive : Costs s (doDeriveSecret s) 0 0 := costs_of_sameTrace (doDeriveSecret_cfg s)
      (congrArg Line.traceRev (doDeriveSecret_line s)) (doDeriveSecret_env s)
    have hloop := costs_retry_authAttempt (h.of_eq hderive.cfg)
    exact ((hderive.trans hloop).trans (costs_conclude _ _)).mono (by decide) (by decide)
  · exact (costs_conclude _ _).mono (by decide) (by decide)
  · exact (costs_of_sameTrace rfl rfl rfl).mono (by decide) (by decide)

/-- The trace of a command begins empty, and its draws are those counted since. -/
theorem Costs.ofAcceptance {cmd : BitVec 2} {s t : State} {us draws : Nat} (h : Costs (accept cmd s) t us draws) :
    duration (traceOf t) ≤ us ∧ drawsIn (traceOf t) ≤ draws ∧ t.env.chalNo = s.env.chalNo + drawsIn (traceOf t) := by
  have hstart : traceOf (accept cmd s) = [] := rfl
  have htime := h.time
  have hdrawn := h.drawn
  have hcounted := h.counted
  rw [hstart] at htime hdrawn hcounted
  exact ⟨htime.trans_eq (Nat.zero_add us), hdrawn.trans_eq (Nat.zero_add draws), hcounted⟩

/-- Settles O44: three attempts of each unit at their longest, one draw an attempt, and one settle delay. -/
theorem noRunIsLongerThanTheLongest : Obligations.NoRunIsLongerThanTheLongest := by
  intro s hidle hgap hpage hsettle i us draws hmem
  have hdefault : DefaultTimes s.cfg := ⟨hgap, hpage, hsettle⟩
  have hident := fun cmd => costs_retry_doReadIdentifier (s := accept cmd s) hdefault
  simp only [List.mem_cons, Prod.mk.injEq, List.not_mem_nil, or_false] at hmem
  obtain ⟨rfl, rfl, rfl⟩ | ⟨rfl, rfl, rfl⟩ | ⟨rfl, rfl, rfl⟩ := hmem
  · exact ⟨_, congrArg Host.Outcome.next (whenIdle_of_idle _ hidle),
      ((hident 1).trans (costs_conclude .ident _)).ofAcceptance⟩
  · exact ⟨_, congrArg Host.Outcome.next (whenIdle_of_idle _ hidle),
      ((hident 2).trans (costs_authenticateFrom (hdefault.of_eq (hident 2).cfg))).ofAcceptance⟩
  · exact ⟨_, congrArg Host.Outcome.next (whenIdle_of_idle _ hidle),
      ((costs_retry_doSoftResetTxn (s := accept 3 s) hdefault).trans (costs_conclude .nothing _)).ofAcceptance⟩

end Sys2Proof.Proofs
end

/-! ### What a success of `AUTHENTICATE` rests on (R223, R224, R243 to R248)

Where a command stands is said by the samples and the challenges it has taken; an operation that ends with `ok` says in
addition what the line has answered it. -/

section
namespace Sys2Proof.Proofs

open Sys2Proof.Machine Sys2Proof.Safety

/-! #### The last attempt of a unit -/

/-- A unit ends with an attempt from where the attempts before it led. -/
theorem retryFrom_last {body : State → State} {P : Nat → State → Prop}
    (hattempt : ∀ m u, P m u → P (m + 1) (attempt body u)) (left : Nat) {m : Nat} {s : State} (h : P m s) :
    ∃ j u, j ≤ m + left ∧ P j u ∧ retryFrom body (left + 1) s = attempt body u := by
  induction left generalizing m s with
  | zero => exact ⟨m, s, le_rfl, h, retryFrom_one body s⟩
  | succ left ih =>
    cases hgo : retries (attempt body s) with
    | true =>
      obtain ⟨j, u, hj, hu, heq⟩ := ih (hattempt m s h)
      exact ⟨j, u, by omega, hu, (retryFrom_of_retries _ hgo).trans heq⟩
    | false => exact ⟨m, s, by omega, h, retryFrom_of_not_retries _ hgo⟩

theorem retry_last {body : State → State} {P : Nat → State → Prop}
    (hattempt : ∀ m u, P m u → P (m + 1) (attempt body u)) {s : State} (h : P 0 (setAtt 0 s)) :
    ∃ j u, j < 3 ∧ P j u ∧ retry body s = attempt body u := by
  obtain ⟨j, u, hj, hu, heq⟩ := retryFrom_last hattempt 2 h
  exact ⟨j, u, by omega, hu, heq⟩

/-! #### Where a command stands -/

/-- The bytes of the page frame in a block with these parameters (R100). -/
def pageCount (s : State) : Nat := s.cfg.nPageRead.count.toNat

/-- u is where a command accepted in s stands after k samples and d draws; what the page frame does not reach of `RBUF`
is still 0. -/
structure Reached (s : State) (k d : Nat) (u : State) : Prop where
  cfg : u.cfg = s.cfg
  line : ∃ ops, LineAfter s.cfg.tGap (acceptedLine s) u.line ops k
  chalScript : u.env.chalScript = s.env.chalScript.drop d
  chalNo : u.env.chalNo = s.env.chalNo + d
  rest : u.session.rbuf.toList.drop (pageCount s) = List.replicate (31 - pageCount s) 0

theorem reached_accept (s : State) (cmd : BitVec 2) : Reached s 0 0 (accept cmd s) where
  cfg := rfl
  line := ⟨[], lineAfter_none _ _⟩
  chalScript := rfl
  chalNo := rfl
  rest := by rw [accept_session, Session.zero, Vector.toList_replicate, List.drop_replicate]

section
variable {s u t : State} {k d : Nat} (h : Reached s k d u)
include h

theorem Reached.answer_eq (j : Nat) : answer u.line j = answer s.line (k + j) := by
  obtain ⟨ops, hline⟩ := h.line
  exact lineAfter_answer hline j

theorem Reached.answeredBytes_eq (j n : Nat) : answeredBytes u.line j n = answeredBytes s.line (k + j) n := by
  obtain ⟨ops, hline⟩ := h.line
  exact lineAfter_answeredBytes hline j n

theorem Reached.sampleNo : u.line.sampleNo = s.line.sampleNo + k := by
  obtain ⟨ops, hline⟩ := h.line
  exact hline.sampleNo

/-- What leaves the line, the challenge source, the parameters and `RBUF` alone takes neither samples nor draws. -/
theorem Reached.of_same (hcfg : t.cfg = u.cfg) (hline : t.line = u.line) (henv : t.env = u.env)
    (hrbuf : t.session.rbuf = u.session.rbuf) : Reached s k d t where
  cfg := hcfg.trans h.cfg
  line := hline ▸ h.line
  chalScript := henv ▸ h.chalScript
  chalNo := henv ▸ h.chalNo
  rest := hrbuf ▸ h.rest

theorem Reached.append {ops : List (List Event)} {j : Nat} (htxn : Transacted u t ops j)
    (hrbuf : t.session.rbuf.toList.drop (pageCount s) = u.session.rbuf.toList.drop (pageCount s)) :
    Reached s (k + j) d t where
  cfg := htxn.cfg.trans h.cfg
  line := by
    obtain ⟨before, hline⟩ := h.line
    exact ⟨before ++ ops, lineAfter_append hline (h.cfg ▸ htxn.line)⟩
  chalScript := htxn.env ▸ h.chalScript
  chalNo := htxn.env ▸ h.chalNo
  rest := hrbuf.trans h.rest

theorem Reached.draw : Reached s k (d + 1) (drawChallenge u) where
  cfg := h.cfg
  line := by
    obtain ⟨before, hline⟩ := h.line
    exact ⟨_, lineAfter_append hline (h.cfg ▸ drawChallenge_after u)⟩
  chalScript := by rw [drawChallenge_env, h.chalScript, List.tail_drop]
  chalNo := by rw [drawChallenge_env, h.chalNo, Nat.add_assoc]
  rest := h.rest

/-- The challenge the next draw takes. -/
theorem Reached.challengeAnswer_eq : challengeAnswer u =
    challengeBytes ((s.env.chalScript[d]?).getD (Config.freeChallenge (s.env.chalNo + d))) := by
  have hhead : chalIn u = u.env.chalScript.head?.getD (Config.freeChallenge u.env.chalNo) := by
    unfold chalIn
    cases u.env.chalScript <;> rfl
  rw [challengeAnswer, hhead, h.chalScript, h.chalNo, List.head?_drop]

end

/-! #### The transactions -/

theorem of_verdict_ok {p : Prop} [Decidable p] {f : Failure} (h : (if p then TxnResult.ok else .failed f) = .ok) :
    p := by
  by_contra hp
  rw [if_neg hp] at h
  cases h

theorem gate_absent_ne_ok {u : State} (h : answer u.line 0 = true) : (gate u).res ≠ .ok := by
  rw [gate_absent_res h]
  exact TxnResult.noConfusion

theorem gate_session (u : State) : (gate u).session = u.session := by
  rw [gate_eq]

/-- What the identifier phase answers with when it succeeds (R189). -/
theorem Reached.readIdentifier {s u : State} {k d : Nat} (h : Reached s k d u) :
    ∃ j, Reached s (k + j) d (doReadIdentifier u) ∧
      ((doReadIdentifier u).res = .ok → j = 65 ∧ answer s.line k = false ∧
        (doReadIdentifier u).session.ident.toList = answeredBytes s.line (k + 1) 8 ∧
        crc8Bits 0 (answeredBytes s.line (k + 1) 8) = 0) := by
  cases hanswer : answer u.line 0 with
  | true =>
    rw [doReadIdentifier_absent hanswer]
    exact ⟨1, h.append (transacted_gate u) (by rw [gate_session]), fun hok => absurd hok (gate_absent_ne_ok hanswer)⟩
  | false =>
    rw [doReadIdentifier_present hanswer]
    refine ⟨65, h.append (transacted_identifierRead u) rfl,
      fun hok => ⟨rfl, (h.answer_eq 0).symm.trans hanswer, ?_, ?_⟩⟩
    · rw [← h.answeredBytes_eq]
      exact answeredVector_toList u.line 1 8
    · rw [← h.answeredBytes_eq]
      exact of_verdict_ok hok

/-- From u to t the identifier, the secret and the challenge stay. -/
structure KeepsKeys (u t : State) : Prop where
  ident : t.session.ident = u.session.ident
  secret : t.session.secret = u.session.secret
  chal : t.session.chal = u.session.chal

theorem KeepsKeys.trans {u t v : State} (h : KeepsKeys u t) (k : KeepsKeys t v) : KeepsKeys u v :=
  ⟨k.ident.trans h.ident, k.secret.trans h.secret, k.chal.trans h.chal⟩

theorem keepsKeys_gate (u : State) : KeepsKeys u (gate u) := by
  rw [gate_eq]
  exact ⟨rfl, rfl, rfl⟩

theorem Reached.writeChallenge {s u : State} {k d : Nat} (h : Reached s k d u) :
    ∃ j, Reached s (k + j) d (doWriteChallenge u) ∧ KeepsKeys u (doWriteChallenge u) ∧
      ((doWriteChallenge u).res = .ok → j = 97 ∧ answer s.line k = false ∧
        answeredBytes s.line (k + 1) 12 = u.session.chal.toList) := by
  cases hanswer : answer u.line 0 with
  | true =>
    rw [doWriteChallenge_absent hanswer]
    exact ⟨1, h.append (transacted_gate u) (by rw [gate_session]), keepsKeys_gate u,
      fun hok => absurd hok (gate_absent_ne_ok hanswer)⟩
  | false =>
    rw [doWriteChallenge_present hanswer]
    refine ⟨97, h.append (transacted_challengeCompared u) rfl, ⟨rfl, rfl, rfl⟩,
      fun hok => ⟨rfl, (h.answer_eq 0).symm.trans hanswer, ?_⟩⟩
    rw [← h.answeredBytes_eq]
    exact of_decide_eq_true (of_verdict_ok hok)

/-- What `READ_AUTH_PAGE` from the k-th sample on has read when it succeeds (R191). -/
structure FramesValid (s : State) (k : Nat) (t : State) : Prop where
  present : answer s.line k = false
  page : t.session.rbuf.toList = answeredBytes s.line (k + 1) (pageCount s) ++ List.replicate (31 - pageCount s) 0
  pageCrc : crc16Bits 0 (Config.cmdReadAuthPage ++ answeredBytes s.line (k + 1) (pageCount s)) = Config.crc16Residual
  mac : t.session.mbuf.toList = answeredBytes s.line (k + 1 + 8 * pageCount s) 22
  macCrc : crc16Bits 0 (answeredBytes s.line (k + 1 + 8 * pageCount s) 22) = Config.crc16Residual

/-- The page read, behind which `RBUF` keeps what it held. -/
theorem Reached.pageRead_toList {s u : State} {k d : Nat} (h : Reached s k d u) :
    (filled u.session.rbuf (pageSentLine u.cfg.tGap u.line) u.cfg.nPageRead.count.toNat).toList =
      answeredBytes s.line (k + 1) (pageCount s) ++ List.replicate (31 - pageCount s) 0 := by
  rw [Proofs.pageRead_toList u _ (pageRead_count_le _), h.answeredBytes_eq, h.cfg, ← pageCount, h.rest]

theorem Reached.filled_drop {s u : State} {k d : Nat} (h : Reached s k d u) :
    (filled u.session.rbuf (pageSentLine u.cfg.tGap u.line) u.cfg.nPageRead.count.toNat).toList.drop (pageCount s) =
      u.session.rbuf.toList.drop (pageCount s) := by
  rw [h.pageRead_toList, h.rest]
  exact List.drop_left' (by simp [answeredBytes])

theorem macFrameJudged_session (u : State) : (macFrameJudged u).session =
    { u.session with
      rbuf := filled u.session.rbuf (pageSentLine u.cfg.tGap u.line) u.cfg.nPageRead.count.toNat
      mbuf := answeredVector u.line (1 + 8 * u.cfg.nPageRead.count.toNat) 22 } := by
  unfold macFrameJudged
  rfl

theorem pageJudged_session (u : State) : (pageJudged u).session =
    { u.session with
      rbuf := filled u.session.rbuf (pageSentLine u.cfg.tGap u.line) u.cfg.nPageRead.count.toNat } := by
  unfold pageJudged pageRead
  rfl

theorem Reached.readAuthPage {s u : State} {k d : Nat} (h : Reached s k d u) :
    ∃ j, Reached s (k + j) d (doReadAuthPage u) ∧ KeepsKeys u (doReadAuthPage u) ∧
      ((doReadAuthPage u).res = .ok → j = 177 + 8 * pageCount s ∧ FramesValid s k (doReadAuthPage u)) := by
  have hcount : u.cfg.nPageRead.count.toNat = pageCount s := by rw [h.cfg, pageCount]
  cases hanswer : answer u.line 0 with
  | true =>
    rw [doReadAuthPage_absent hanswer]
    exact ⟨1, h.append (transacted_gate u) (by rw [gate_session]), keepsKeys_gate u,
      fun hok => absurd hok (gate_absent_ne_ok hanswer)⟩
  | false =>
    by_cases hcrc : pageCrc u = Config.crc16Residual
    · have hsession := macFrameJudged_session u
      have hreached := h.append (transacted_macFrameJudged u) (by rw [hsession]; exact h.filled_drop)
      rw [hcount] at hreached
      rw [doReadAuthPage_goodPage hanswer hcrc]
      refine ⟨177 + 8 * pageCount s, hreached, ⟨by rw [hsession], by rw [hsession], by rw [hsession]⟩,
        fun hok => ⟨rfl, ?_⟩⟩
      · have hmac : macCrc u = Config.crc16Residual := of_verdict_ok hok
        have hmbuf := answeredVector_toList u.line (1 + 8 * u.cfg.nPageRead.count.toNat) 22
        rw [pageCrc, hcount, h.answeredBytes_eq] at hcrc
        rw [macCrc, hcount, h.answeredBytes_eq, ← Nat.add_assoc] at hmac
        rw [hcount, h.answeredBytes_eq, ← Nat.add_assoc] at hmbuf
        refine ⟨(h.answer_eq 0).symm.trans hanswer, ?_, hcrc, ?_, hmac⟩
        · rw [hsession]
          exact h.pageRead_toList
        · rw [hsession, hcount]
          exact hmbuf
    · have hsession := pageJudged_session u
      rw [doReadAuthPage_badPage hanswer hcrc]
      exact ⟨_, h.append (transacted_pageJudged u) (by rw [hsession]; exact h.filled_drop),
        ⟨by rw [hsession], by rw [hsession], by rw [hsession]⟩, fun hok => absurd (of_verdict_ok hok) hcrc⟩

/-- The challenge a command accepted in s draws after d others (R45). -/
def challengeDrawn (s : State) (d : Nat) : Vector Byte 12 :=
  challengeBytes ((s.env.chalScript[d]?).getD (Config.freeChallenge (s.env.chalNo + d)))

/-- What `WRITE_CHALLENGE` from the k-th sample on and `READ_AUTH_PAGE` after it have read when both succeed, the
command having drawn d challenges before (R190, R191). -/
structure TransactionsValid (s : State) (k d : Nat) (t : State) : Prop where
  present : answer s.line k = false
  drawn : t.session.chal = challengeDrawn s d
  echo : answeredBytes s.line (k + 1) 12 = t.session.chal.toList
  frames : FramesValid s (k + 97) t

theorem Reached.authTransactions {s u : State} {k d : Nat} (h : Reached s k d u) :
    ∃ j, Reached s (k + j) (d + 1) (authTransactions u) ∧
      (authTransactions u).session.ident = u.session.ident ∧ (authTransactions u).session.secret = u.session.secret ∧
      ((authTransactions u).res = .ok → j = 274 + 8 * pageCount s ∧ TransactionsValid s k d (authTransactions u)) := by
  obtain ⟨i, hwritten, hkept, hecho⟩ := h.draw.writeChallenge
  rw [Proofs.authTransactions]
  obtain ⟨hok, heq⟩ | ⟨hfail, heq⟩ := thenOk_cases doReadAuthPage (doWriteChallenge (drawChallenge u))
  · obtain ⟨rfl, hpresent, hechoed⟩ := hecho hok
    obtain ⟨j, hread, hkept', hframes⟩ := hwritten.readAuthPage
    rw [heq]
    refine ⟨97 + j, by rwa [← Nat.add_assoc], hkept'.ident.trans hkept.ident, hkept'.secret.trans hkept.secret,
      fun hok' => ?_⟩
    obtain ⟨rfl, hvalid⟩ := hframes hok'
    have hchal := (hkept.trans hkept').chal
    exact ⟨by omega, hpresent, hchal.trans h.challengeAnswer_eq, hechoed.trans (congrArg _ hchal.symm), hvalid⟩
  · rw [heq]
    exact ⟨i, hwritten, hkept.ident, hkept.secret, fun hok => absurd hok hfail⟩

/-! #### The verdict on the MAC -/

/-- The comparator, which leaves the line and the buffers, ends with `ok` only on the MAC expected (R246). -/
theorem Reached.judgeMac {s u : State} {k d : Nat} (h : Reached s k d u)
    (hsecret : u.session.secret = secretOf s.cfg u.session.ident) :
    Reached s k d (judgeMac u) ∧
      (∃ mach, (judgeMac u).session = { u.session with mach := mach }) ∧
      ((judgeMac u).res = .ok → u.session.mbuf.toList.take 20 =
        (expectedMac s.cfg u.session.ident u.session.chal u.session.rbuf).toList) := by
  have hmac : macOf u = expectedMac s.cfg u.session.ident u.session.chal u.session.rbuf := by
    rw [← h.cfg]
    exact macOf_eq_expectedMac (by rw [hsecret, h.cfg])
  obtain ⟨sha, heq⟩ := judgeMac_eq u
  rw [heq, macJudged, hmac]
  refine ⟨h.of_same rfl rfl rfl rfl, ⟨_, rfl⟩, fun hok => ?_⟩
  by_contra hne
  simp [hne] at hok

/-- An attempt that has succeeded, from the k-th sample on and with d challenges drawn before (R246, R248). -/
structure MacProven (s : State) (ident : Vector Byte 8) (k d : Nat) (t : State) : Prop
    extends TransactionsValid s k d t where
  expected : (answeredBytes s.line (k + 98 + 8 * pageCount s) 22).take 20 =
    (expectedMac s.cfg ident t.session.chal t.session.rbuf).toList

/-- The block holds the identifier and its secret (R243). -/
structure Derived (s : State) (ident : Vector Byte 8) (u : State) : Prop where
  identifier : u.session.ident = ident
  secret : u.session.secret = secretOf s.cfg ident

theorem Reached.authAttempt {s u : State} {ident : Vector Byte 8} {k d : Nat} (h : Reached s k d u)
    (hderived : Derived s ident u) :
    ∃ j, Reached s (k + j) (d + 1) (authAttempt u) ∧ Derived s ident (authAttempt u) ∧
      ((authAttempt u).res = .ok → j = 274 + 8 * pageCount s ∧ MacProven s ident k d (authAttempt u)) := by
  obtain ⟨j, hreached, hident, hsecret, hvalid⟩ := h.authTransactions
  rw [authAttempt_eq]
  generalize Proofs.authTransactions u = p at *
  have hident := hident.trans hderived.identifier
  have hsecret := hsecret.trans hderived.secret
  obtain ⟨hok, heq⟩ | ⟨hfail, heq⟩ := thenOk_cases Machine.judgeMac p
  · obtain ⟨hjudged, ⟨mach, hsession⟩, hexpected⟩ := hreached.judgeMac (by rw [hsecret, hident])
    obtain ⟨rfl, hpresent, hdrawn, hecho, hframes⟩ := hvalid hok
    rw [heq]
    refine ⟨_, hjudged, ⟨by rw [hsession, ← hident], by rw [hsession, ← hsecret]⟩,
      fun hok' => ⟨rfl, ⟨hpresent, ?_, ?_, ?_⟩, ?_⟩⟩
    · rw [hsession, ← hdrawn]
    · rw [hsession, hecho]
    · obtain ⟨hpresent', hpage, hpageCrc, hmac, hmacCrc⟩ := hframes
      exact ⟨hpresent', by rw [hsession, ← hpage], hpageCrc, by rw [hsession, ← hmac], hmacCrc⟩
    · rw [hsession, ← hframes.mac, hexpected hok', hident]
  · rw [heq]
    exact ⟨j, hreached, ⟨hident, hsecret⟩, fun hok => absurd hok hfail⟩

/-! #### The two retried units -/

/-- An attempt's counter is nothing a command's standing speaks of. -/
theorem Reached.setAtt {s u : State} {k d : Nat} (h : Reached s k d u) (n : BitVec 2) : Reached s k d (setAtt n u) :=
  h.of_same rfl rfl rfl rfl

/-- An identifier phase that succeeds has read a valid identifier in its last attempt (R189, R241). -/
theorem reached_identifierPhase {s : State} (hok : (retry doReadIdentifier (accept 2 s)).res = .ok) :
    ∃ i, Reached s (i + 65) 0 (retry doReadIdentifier (accept 2 s)) ∧ answer s.line i = false ∧
      answeredBytes s.line (i + 1) 8 = (retry doReadIdentifier (accept 2 s)).session.ident.toList ∧
      crc8Bits 0 (retry doReadIdentifier (accept 2 s)).session.ident.toList = 0 := by
  have hattempt : ∀ (_ : Nat) (u : State), (∃ k, Reached s k 0 u) →
      ∃ k, Reached s k 0 (attempt doReadIdentifier u) := by
    rintro - u ⟨k, h⟩
    obtain ⟨j, hread, -⟩ := (h.setAtt (u.seq.att + 1)).readIdentifier
    exact ⟨k + j, hread⟩
  obtain ⟨-, u, -, ⟨k, h⟩, heq⟩ :=
    retry_last (P := fun _ u => ∃ k, Reached s k 0 u) hattempt ⟨0, (reached_accept s 2).setAtt 0⟩
  obtain ⟨j, hread, hvalid⟩ := (h.setAtt (u.seq.att + 1)).readIdentifier
  rw [heq, attempt] at hok ⊢
  obtain ⟨rfl, hpresent, hident, hcrc⟩ := hvalid hok
  exact ⟨k, hread, hpresent, hident.symm, hident ▸ hcrc⟩

/-- Where the authentication loop stands after d attempts, which began at the i-th sample. -/
structure Authenticating (s : State) (i : Nat) (ident : Vector Byte 8) (d : Nat) (u : State) : Prop where
  reached : ∃ k, i ≤ k ∧ Reached s k d u
  derived : Derived s ident u

theorem Authenticating.attempt {s u : State} {i d : Nat} {ident : Vector Byte 8} (h : Authenticating s i ident d u) :
    Authenticating s i ident (d + 1) (attempt authAttempt u) ∧
      ((attempt authAttempt u).res = .ok → ∃ k, i ≤ k ∧
        Reached s (k + (274 + 8 * pageCount s)) (d + 1) (attempt authAttempt u) ∧
        MacProven s ident k d (attempt authAttempt u)) := by
  obtain ⟨⟨k, hik, hreached⟩, hident, hsecret⟩ := h
  obtain ⟨j, hafter, hderived, hproven⟩ := (hreached.setAtt (u.seq.att + 1)).authAttempt ⟨hident, hsecret⟩
  rw [Proofs.attempt]
  refine ⟨⟨⟨k + j, by omega, hafter⟩, hderived⟩, fun hok => ?_⟩
  obtain ⟨rfl, hmac⟩ := hproven hok
  exact ⟨k, hik, hafter, hmac⟩

/-- The loop that succeeds has proved the MAC in its last attempt, one of at most three (R243). -/
theorem Authenticating.loop {s u : State} {i : Nat} {ident : Vector Byte 8}
    (h : Authenticating s i ident 0 (Machine.setAtt 0 u)) (hok : (retry authAttempt u).res = .ok) :
    ∃ k d, i ≤ k ∧ d < 3 ∧ Reached s (k + (274 + 8 * pageCount s)) (d + 1) (retry authAttempt u) ∧
      MacProven s ident k d (retry authAttempt u) := by
  obtain ⟨d, v, hd, hv, heq⟩ :=
    retry_last (P := Authenticating s i ident) (fun _ _ hv => hv.attempt.1) h
  rw [heq] at hok ⊢
  obtain ⟨k, hik, hreached, hmac⟩ := hv.attempt.2 hok
  exact ⟨k, d, hik, hd, hreached, hmac⟩

/-! #### The end of the command -/

theorem failureStatus_ne_ok (f : Failure) : failureStatus f ≠ .ok := by
  cases f <;> exact Status.noConfusion

/-- A command that ends with `OK` ends in a unit that has succeeded. -/
theorem conclude_status_ok {cmd : BitVec 2} {u : State} (hres : HasResult cmd u) (out : Output)
    (h : (conclude out u).host.status = .ok) : u.res = .ok ∧ conclude out u = finish .ok .none out u := by
  obtain hok | ⟨f, hf, -⟩ := hres
  · exact ⟨hok, conclude_of_ok out hok⟩
  · rw [conclude_of_failed out hf] at h
    exact absurd h (failureStatus_ne_ok f)

theorem runAuthenticate_status_ok {s : State} (h : (runAuthenticate s).host.status = .ok) :
    ∃ found u, found = retry doReadIdentifier (accept 2 s) ∧ found.res = .ok ∧
      u = retry authAttempt (doDeriveSecret found) ∧ u.res = .ok ∧
      runAuthenticate s = finish .ok .none .trusted u := by
  have hres := retry_ends_as_body (hasResult_doReadIdentifier (cmd := 2) (by decide)) (accept 2 s)
  rw [runAuthenticate] at h ⊢
  generalize retry doReadIdentifier (accept 2 s) = found at *
  obtain hok | ⟨f, hf, -⟩ := hres
  · rw [authenticateFrom_of_ok hok] at h ⊢
    obtain ⟨hok', heq⟩ := conclude_status_ok (retry_ends_as_body hasResult_authAttempt _) _ h
    exact ⟨found, _, rfl, hok, rfl, hok', heq⟩
  · rw [authenticateFrom_of_failed hf, conclude_of_failed _ hf] at h
    exact absurd h (failureStatus_ne_ok f)

/-- The secret of the identifier found is derived without the line (R243). -/
theorem Reached.authenticating {s found : State} {i : Nat} (h : Reached s i 0 found) :
    Authenticating s i found.session.ident 0 (Machine.setAtt 0 (doDeriveSecret found)) := by
  obtain ⟨sha, heq⟩ := doDeriveSecret_eq found
  rw [heq, h.cfg]
  exact ⟨⟨i, le_rfl, h.of_same h.cfg.symm rfl rfl rfl⟩, rfl, rfl⟩

/-- Settles O41: what the last attempt of each retried unit has read is what its check, or the comparator, has let
pass. -/
theorem successNeedsTheExpectedMac : Obligations.SuccessNeedsTheExpectedMac := by
  intro s t hidle hexec hstatus
  have hrun : runAuthenticate s = t :=
    (whenIdle_of_idle runAuthenticate hidle).symm.trans (Host.Outcome.next.inj hexec)
  obtain ⟨found, u, hfound, hfoundOk, hu, huOk, hend⟩ := runAuthenticate_status_ok (hrun ▸ hstatus)
  obtain ⟨i, hreached, hpresent, hident, hcrc⟩ := reached_identifierPhase (hfound ▸ hfoundOk)
  rw [← hfound] at hreached hident hcrc
  obtain ⟨j, draw, hij, hdraw, hafter, hmac⟩ := hreached.authenticating.loop (hu ▸ huOk)
  rw [← hu] at hafter hmac
  obtain ⟨⟨hpresentChal, hdrawn, hecho, hpresentPage, hpage, hpageCrc, hmbuf, hmacCrc⟩, hexpected⟩ := hmac
  rw [← hrun, hend]
  refine ⟨i, j, draw, found.session.ident, u.session.chal, u.session.rbuf, hpresent, hident, hcrc, hij, hdraw, hdrawn,
    hpresentChal, hecho, hpresentPage, hpage, hpageCrc, hmacCrc, hexpected, fun k hk => packTrusted_byte _ hk, ?_⟩
  have hsamples := hafter.sampleNo
  rw [pageCount] at hsamples
  exact hsamples.trans (by omega)

end Sys2Proof.Proofs
end

/-! ### `rst` cuts the trace (R300 to R302) -/

section
namespace Sys2Proof.Proofs

open Sys2Proof.Machine Sys2Proof.Safety

/-- A trace cut at a microsecond lasts until then, or as long as it was (R302). -/
theorem duration_cutTrace (us : Nat) (tr : List Event) : duration (cutTrace us tr) = min us (duration tr) := by
  fun_induction cutTrace us tr with
  | case1 => exact (Nat.zero_min _).symm
  | case2 us n rest hfits ih =>
    rw [duration_W, duration_W, ih]
    omega
  | case3 us n rest hlong =>
    rw [duration_W, duration_W, duration_nil]
    omega
  | case4 us rest ih | case5 us rest ih | case6 us v rest ih | case7 us bytes rest ih => exact ih
  | case8 us => exact (Nat.min_zero _).symm

/-- `rst` during a step the sequencer can make: the step's operation is cut. -/
theorem step_rst {s u : State} {us : Nat} {rest : List Input} (hinputs : s.env.inputs = .rst us :: rest)
    (hstep : sequencerStep (withEmptyTrace (popInput s)) = .next u) :
    step s = .next (cutByReset us (operationEvents u) u.line.gapNo (popInput s)) := by
  simp only [step, hinputs, resetStep, hstep]

/-- Settles O9: the step is `cutByReset`, whose trace is the old one and the events of the operation up to the cut. -/
theorem resetInputCutsTheCommand : Obligations.ResetInputCutsTheCommand := by
  intro s u us rest hinputs hstep
  refine ⟨_, step_rst hinputs hstep, rfl, rfl, rfl, rfl, ?_, rfl, ?_⟩
  · calc duration (appendEvents s.line.traceRev (cutTrace us (traceOf u))).reverse
        = duration s.line.traceRev + duration (cutTrace us (traceOf u)) := by
          rw [duration_reverse, duration_appendEvents]
      _ = duration (traceOf s) + min us (duration (traceOf u)) := by
          rw [duration_cutTrace, ← duration_reverse s.line.traceRev]
          rfl
  · exact congrArg List.tail hinputs

end Sys2Proof.Proofs
end

/-! ### How long operations and transactions last (R130, R315, R316) -/

section
namespace Sys2Proof.Proofs

open Sys2Proof.Machine Sys2Proof.Safety

/-- From s to t the trace grows by so many microseconds, and by their clock cycles (R130, R315). -/
def Took (s t : State) (us : Nat) : Prop :=
  duration (traceOf t) = duration (traceOf s) + us ∧
    clockCycles s.cfg (traceOf t) = clockCycles s.cfg (traceOf s) + us * s.cfg.clkPerUs

/-- Without gaps, operations on the line take their own time. -/
theorem took_of_lineAfter {s t : State} {ops : List (List Event)} {k us : Nat} (hgap : s.cfg.tGap = .fixed 0)
    (hline : LineAfter s.cfg.tGap s.line t.line ops k) (hops : Takes ops us) : Took s t us := by
  have htrace := hline.trace
  rw [hgap, withGaps_fixed_zero] at htrace
  have htime : duration (traceOf t) = duration (traceOf s) + us := by
    rw [traceOf, traceOf, duration_reverse, duration_reverse, htrace, duration_appendEvents, hops.1]
  exact ⟨htime, by rw [clockCycles, clockCycles, htime, Nat.add_mul]⟩

/-- An operation that leads to u, so to t, takes the time of what it puts on the line. -/
theorem took_of_exec {i : Instr} {s t u : State} {ops : List (List Event)} {k us : Nat} (hgap : s.cfg.tGap = .fixed 0)
    (hrun : exec i s = .next u) (hline : LineAfter s.cfg.tGap s.line u.line ops k) (hops : Takes ops us)
    (h : exec i s = .next t) : Took s t us := by
  cases hrun.symm.trans h
  exact took_of_lineAfter hgap hline hops

/-! #### The operations (R315) -/

theorem takes_wbit (b : Bool) : Takes [wbitEvents b] 70 := by cases b <;> exact ⟨rfl, rfl⟩

theorem takes_rbit (v : Bool) : Takes [rbitEvents v] 70 := ⟨rfl, rfl⟩

theorem took_wblock {s t : State} {src : BlockSource} {n : BitVec 6} (hgap : s.cfg.tGap = .fixed 0)
    (h : exec (.wblock src n) s = .next t) : Took s t (560 * n.toNat) := by
  obtain hfits | hover := le_or_gt n.toNat src.length
  · obtain ⟨u, hrun, -, hline⟩ := wblockSendsAscendingBytes s src n hfits
    have hops := takes_bytesOps (blockBytes s src n.toNat)
    rw [blockBytes, List.length_map, List.length_range, Nat.mul_comm] at hops
    exact took_of_exec hgap hrun hline hops h
  · cases (exec_wblock_overrun hover s).symm.trans h

theorem took_rblock {s t : State} {buf : Buf} {n : BitVec 6} (hgap : s.cfg.tGap = .fixed 0)
    (h : exec (.rblock buf n) s = .next t) : Took s t (560 * n.toNat) := by
  obtain hfits | hover := le_or_gt n.toNat buf.length
  · obtain ⟨u, hrun, -, -, -, hline⟩ := rblockStoresAscendingBytes s buf n hfits
    have hops := takes_readOps s.line 0 (8 * n.toNat)
    rw [Nat.mul_right_comm] at hops
    exact took_of_exec hgap hrun hline hops h
  · cases (exec_rblock_overrun hover s).symm.trans h

/-! #### The transactions (R316) -/

theorem took_select {i : Instr} {v : Byte} {s t : State} (hgap : s.cfg.tGap = .fixed 0)
    (hpresent : answer s.line 0 = false) (hi : (i, v) ∈ [(Instr.selectRead, (0x33 : Byte)), (.selectSkip, 0xCC)])
    (h : exec i s = .next t) : Took s t 1520 := by
  obtain ⟨u, hrun, hline, -⟩ := selectionsSendTheirByte s hpresent i v hi
  exact took_of_exec hgap hrun hline ((takes_reset _).append (takes_byteOps v)) h

/-- A wrong page frame ends the transaction after the page, a right one is followed by the delay and the MAC frame. -/
theorem took_readAuthPage {s t : State} (htimes : DefaultTimes s.cfg) (hpresent : answer s.line 0 = false)
    (h : exec .readAuthPage s = .next t) :
    Took s t (if t.res = .failed (.integrity .crc16Page) then 20560 else 34880) := by
  have hpage := (transacted_pageJudged s).line
  have hboth := (transacted_macFrameJudged s).line
  rw [htimes.nPageRead] at hpage hboth
  have ht : doReadAuthPage s = t := Host.Outcome.next.inj h
  by_cases hcrc : pageCrc s = Config.crc16Residual
  · have hres : (macFrameJudged s).res ≠ .failed (.integrity .crc16Page) := by
      simp only [macFrameJudged]
      split <;> decide
    rw [← ht, doReadAuthPage_goodPage hpresent hcrc, if_neg hres]
    exact took_of_lineAfter htimes.tGap hboth ((takes_pageOps _ _).append (takes_macOps _ _))
  · have hres : (pageJudged s).res = .failed (.integrity .crc16Page) := if_neg hcrc
    rw [← ht, doReadAuthPage_badPage hpresent hcrc, if_pos hres]
    exact took_of_lineAfter htimes.tGap hpage (takes_pageOps _ _)

/-- Only an answer that is taken is followed by the settle delay. -/
theorem took_softResetTxn {s t : State} (htimes : DefaultTimes s.cfg) (hpresent : answer s.line 0 = false)
    (h : exec .softResetTxn s = .next t) : Took s t (if t.res = .ok then 106560 else 6560) := by
  have hanswered := transacted_softAnswered s
  have ht : doSoftResetTxn s = t := Host.Outcome.next.inj h
  rw [← ht, doSoftResetTxn_present hpresent]
  obtain ⟨hok, heq⟩ | ⟨hbad, heq⟩ := thenOk_cases settle (softAnswered s)
  · have hsettled := (hanswered.trans (transacted_settle _)).line
    rw [hanswered.cfg, htimes.tSoftSettle] at hsettled
    have hres : (settle (softAnswered s)).res = .ok := hok
    rw [heq, if_pos hres]
    exact took_of_lineAfter htimes.tGap hsettled ((takes_softOps _ _).append (takes_wait _))
  · rw [heq, if_neg hbad]
    exact took_of_lineAfter htimes.tGap hanswered.line (takes_softOps _ _)

/-- Settles O37: each operation and transaction takes the time of the slots, pulses and waits it puts on the line. -/
theorem operationsLastTheirTime : Obligations.OperationsLastTheirTime := by
  intro s t hgap took lasts
  refine ⟨fun b => took_of_exec hgap rfl (wbitLine_after _ b _) (takes_wbit b),
    took_of_exec hgap rfl (rbitLine_after _ _) (takes_rbit _),
    took_of_exec hgap rfl (resetLine_after _ _) (takes_reset _),
    fun n => took_of_exec hgap rfl (delayLine_after _ n _) (takes_wait _), fun v => ?_, ?_,
    fun _ _ => took_wblock hgap, fun _ _ => took_rblock hgap, fun habsent i hi => ?_,
    fun hpresent hpage hsettle => ?_⟩
  · obtain ⟨u, hrun, -, hline⟩ := (wbyteSendsTheLowBitFirst s).1 v
    exact took_of_exec hgap hrun hline (takes_byteOps v)
  · obtain ⟨u, byte, hrun, -, -, hline⟩ := rbyteTakesTheLowBitFirst s
    exact took_of_exec hgap hrun hline (takes_readOps _ 0 8)
  · exact took_of_exec hgap (exec_absent habsent hi) (transacted_gate s).line (takes_reset _)
  · have htimes : DefaultTimes s.cfg := ⟨hgap, hpage, hsettle⟩
    exact ⟨took_select hgap hpresent (v := 0x33) (by simp), took_select hgap hpresent (v := 0xCC) (by simp),
      took_of_exec hgap (congrArg Host.Outcome.next (doReadIdentifier_present hpresent))
        (transacted_identifierRead s).line (takes_identifierOps _ _),
      took_of_exec hgap (congrArg Host.Outcome.next (doWriteChallenge_present hpresent))
        (transacted_challengeCompared s).line (takes_challengeOps _ _ _),
      took_readAuthPage htimes hpresent, took_softResetTxn htimes hpresent⟩

end Sys2Proof.Proofs
end

/-! ### No outcome depends on time (R320)

Two blocks with other gaps, another settle time and another clock run the same command through the same operations: what
differs is the trace, the gaps drawn and the parameters, which no operation reads but to put its waits on the line. -/

section
namespace Sys2Proof.Proofs

open Sys2Proof.Machine Sys2Proof.Safety

/-- The parameters with other times. -/
def withTimeParams (other p : Config.Params) : Config.Params :=
  { p with tGap := other.tGap, tSoftSettle := other.tSoftSettle, clkPerUs := other.clkPerUs }

/-- The state with other times, this trace and this number of gaps drawn. -/
def retimed (other : Config.Params) (tr : List Event) (no : Nat) (s : State) : State :=
  { s with cfg := withTimeParams other s.cfg, line := { s.line with traceRev := tr, gapNo := no } }

/-- u is s with other times. -/
def Retimed (other : Config.Params) (s u : State) : Prop := ∃ tr no, u = retimed other tr no s

/-- What neither reads nor writes the times keeps two blocks alike. -/
theorem respects_retimed {other : Config.Params} {f : State → State}
    (hf : ∀ tr no s, f (retimed other tr no s) = retimed other tr no (f s)) : Respects (Retimed other) f := by
  rintro s _ ⟨tr, no, rfl⟩
  exact ⟨tr, no, hf tr no s⟩

/-- Operations that use the line alike, with as many samples, leave it alike but for the trace and the gaps drawn. -/
theorem line_eq_of_lineAfter {g g' : Config.Gap} {l m m' : Line} {tr : List Event} {no k : Nat}
    {ops ops' : List (List Event)} (h : LineAfter g l m ops k)
    (h' : LineAfter g' { l with traceRev := tr, gapNo := no } m' ops' k)
    (huse : ops'.any usesLine = ops.any usesLine) (hlow : ops'.any usesLow = ops.any usesLow) :
    m' = { m with traceRev := m'.traceRev, gapNo := m'.gapNo } := by
  have hdrv : m'.drv = m.drv := by rw [h'.drv, h.drv, hlow]
  have htimer : m'.usTimer = m.usTimer := by rw [h'.timer, h.timer, huse]
  have hdue : m'.gapDue = m.gapDue := by rw [h'.due, h.due, huse]
  have hscript : m'.script = m.script := by rw [h'.script, h.script]
  have hsample : m'.sampleNo = m.sampleNo := by rw [h'.sampleNo, h.sampleNo]
  simp only [← hdrv, ← htimer, ← hdue, ← hscript, ← hsample]

/-- Two blocks whose operation uses the line alike, and differs in nothing else, go on alike. -/
theorem retimed_of_lineAfter {other : Config.Params} {s t v : State} {tr : List Event} {no k : Nat} {g g' : Config.Gap}
    {ops ops' : List (List Event)} (ht : LineAfter g s.line t.line ops k)
    (hv : LineAfter g' (retimed other tr no s).line v.line ops' k) (huse : ops'.any usesLine = ops.any usesLine)
    (hlow : ops'.any usesLow = ops.any usesLow)
    (hrest : v = { t with cfg := withTimeParams other t.cfg, line := v.line }) : Retimed other t v := by
  refine ⟨v.line.traceRev, v.line.gapNo, ?_⟩
  rw [retimed, ← line_eq_of_lineAfter ht hv huse hlow]
  exact hrest

section
variable (other : Config.Params)

theorem respects_retimed_doReset : Respects (Retimed other) doReset := by
  rintro s _ ⟨tr, no, rfl⟩
  rw [doReset_eq, doReset_eq]
  exact retimed_of_lineAfter (resetLine_after _ s.line) (resetLine_after _ _) rfl rfl rfl

theorem respects_retimed_doWbyte (v : Byte) : Respects (Retimed other) (doWbyte v) := by
  rintro s _ ⟨tr, no, rfl⟩
  rw [doWbyte_eq, doWbyte_eq]
  exact retimed_of_lineAfter (lineAfterByte_after _ v s.line) (lineAfterByte_after _ v _) rfl rfl rfl

theorem respects_retimed_doWblock (src : BlockSource) (n : Nat) : Respects (Retimed other) (doWblock src n) := by
  rintro s _ ⟨tr, no, rfl⟩
  have hbyte : sourceByte (retimed other tr no s) src = sourceByte s src := funext fun k =>
    sourceByte_congr (s := s) rfl rfl src k
  rw [doWblock_eq, doWblock_eq, blockBytes, hbyte]
  exact retimed_of_lineAfter (lineAfterBytes_after _ _ s.line) (lineAfterBytes_after _ _ _) rfl rfl rfl

theorem respects_retimed_readByteInto (buf : Buf) (k : Nat) :
    Respects (Retimed other) fun s => readByteInto buf s k := by
  rintro s _ ⟨tr, no, rfl⟩
  simp only [readByteInto, doRbyte_eq]
  cases buf <;>
    exact retimed_of_lineAfter (lineAfterReads_after _ 8 s.line) (lineAfterReads_after _ 8 _) rfl rfl rfl

theorem respects_retimed_doRblock (buf : Buf) (n : Nat) : Respects (Retimed other) (doRblock buf n) := by
  intro s u hR
  rw [doRblock, doRblock]
  induction List.range n generalizing s u with
  | nil => exact hR
  | cons k ks ih => exact ih (respects_retimed_readByteInto other buf k hR)

theorem respects_retimed_doDelay (n : BitVec 17) : Respects (Retimed other) (doDelay n) := by
  rintro s _ ⟨tr, no, rfl⟩
  exact retimed_of_lineAfter (delayLine_after _ n s.line) (delayLine_after _ n _) rfl rfl rfl

/-- The settle delay may be another one. -/
theorem respects_retimed_settle : Respects (Retimed other) settle := by
  rintro s _ ⟨tr, no, rfl⟩
  exact retimed_of_lineAfter (delayLine_after _ s.cfg.tSoftSettle s.line) (delayLine_after _ other.tSoftSettle _)
    rfl rfl rfl

theorem respects_retimed_drawChallenge : Respects (Retimed other) drawChallenge := by
  rintro s _ ⟨tr, no, rfl⟩
  exact retimed_of_lineAfter (drawChallenge_after s) (drawChallenge_after _) rfl rfl rfl

theorem respects_retimed_doCrc8Check : Respects (Retimed other) doCrc8Check :=
  respects_retimed fun _ _ _ => by rw [doCrc8Check_eq, doCrc8Check_eq]; rfl

theorem respects_retimed_doCrc16Check (frame : Frame) : Respects (Retimed other) (doCrc16Check frame) :=
  respects_retimed fun _ _ _ => by
    rw [doCrc16Check_eq, doCrc16Check_eq]
    cases frame <;> rfl

theorem retimed_keptByOperations : KeptByOperations (Retimed other) where
  res := by rintro s _ ⟨tr, no, rfl⟩; rfl
  att := by rintro s _ ⟨tr, no, rfl⟩; rfl
  present := by rintro s _ ⟨tr, no, rfl⟩; rfl
  crc8Ok := by rintro s _ ⟨tr, no, rfl⟩; rfl
  crc16Ok := by rintro s _ ⟨tr, no, rfl⟩; rfl
  echoOk := by rintro s _ ⟨tr, no, rfl⟩; rfl
  pageRead := by rintro s _ ⟨tr, no, rfl⟩; rfl
  presenceRetry := by rintro s _ ⟨tr, no, rfl⟩; rfl
  setRes _ := respects_retimed fun _ _ _ => rfl
  setAtt _ := respects_retimed fun _ _ _ => rfl
  doReset := respects_retimed_doReset other
  doWbyte := respects_retimed_doWbyte other
  sendChallenge := respects_retimed_doWblock other _ _
  sendSoftReset := respects_retimed_doWblock other _ _
  readIdent := respects_retimed_doRblock other _ _
  readEcho := respects_retimed_doRblock other _ _
  readRbuf _ := respects_retimed_doRblock other _ _
  readMbuf _ _ _ := respects_retimed_doRblock other _ _
  doDelay := respects_retimed_doDelay other
  settle := respects_retimed_settle other
  doCrc8Check := respects_retimed_doCrc8Check other
  doCrc16Check := respects_retimed_doCrc16Check other
  doEchoCheck := respects_retimed fun _ _ _ => rfl
  drawChallenge := respects_retimed_drawChallenge other

end

/-! #### The commands (R242 to R250) -/

/-- What a command does beside its transactions keeps the relation too. -/
structure KeptByCommands (R : State → State → Prop) : Prop extends KeptByOperations R where
  macOk : ∀ ⦃s u⦄, R s u → u.flags.macOk = s.flags.macOk
  accept : ∀ cmd, Respects R (accept cmd)
  finish : ∀ st c out, Respects R (finish st c out)
  deriveSecret : Respects R doDeriveSecret
  verifyMac : Respects R fun s => doVerifyMac (doComputeMac s)

namespace KeptByCommands

variable {R : State → State → Prop} (h : KeptByCommands R)
include h

theorem conclude (out : Output) : Respects R (conclude out) := by
  intro s u hR
  unfold Machine.conclude
  rw [h.res hR]
  split
  · exact h.finish _ _ _ hR
  · exact h.finish _ _ _ hR
  · exact hR

theorem judgeMac : Respects R judgeMac := fun _ _ hR =>
  h.require .macMismatch (h.verifyMac hR) (h.macOk (h.verifyMac hR))

theorem authAttempt : Respects R authAttempt := fun _ _ hR => h.thenOk h.judgeMac (h.authTransactions hR)

theorem authenticateFrom : Respects R authenticateFrom := by
  intro s u hR
  unfold Machine.authenticateFrom
  rw [h.res hR]
  split
  · exact h.conclude _ (h.retry h.authAttempt (h.deriveSecret hR))
  · exact h.conclude _ hR
  · exact hR

theorem runGetIdentifier : Respects R runGetIdentifier := fun _ _ hR =>
  h.conclude _ (h.retry h.doReadIdentifier (h.accept 1 hR))

theorem runAuthenticate : Respects R runAuthenticate := fun _ _ hR =>
  h.authenticateFrom (h.retry h.doReadIdentifier (h.accept 2 hR))

theorem runSoftReset : Respects R runSoftReset := fun _ _ hR =>
  h.conclude _ (h.retry h.doSoftResetTxn (h.accept 3 hR))

end KeptByCommands

theorem retimed_keptByCommands (other : Config.Params) : KeptByCommands (Retimed other) where
  toKeptByOperations := retimed_keptByOperations other
  macOk := by rintro s _ ⟨tr, no, rfl⟩; rfl
  accept _ := by rintro s _ ⟨tr, no, rfl⟩; exact ⟨[], no, rfl⟩
  finish _ _ _ := respects_retimed fun _ _ _ => rfl
  deriveSecret := respects_retimed fun _ _ _ => rfl
  verifyMac := respects_retimed fun _ _ _ => rfl

/-! #### The parameters stay (R47) -/

theorem conclude_cfg (out : Output) (s : State) : (conclude out s).cfg = s.cfg := by
  unfold conclude
  split <;> rfl

theorem authenticateFrom_cfg (s : State) : (authenticateFrom s).cfg = s.cfg := by
  unfold authenticateFrom
  split
  · rw [conclude_cfg, retry_cfg fun u => (operationFrame_authAttempt u).cfg, doDeriveSecret_cfg]
  · exact conclude_cfg _ s
  · rfl

theorem runGetIdentifier_cfg (s : State) : (runGetIdentifier s).cfg = s.cfg :=
  (conclude_cfg _ _).trans (retry_cfg doReadIdentifier_cfg _)

theorem runAuthenticate_cfg (s : State) : (runAuthenticate s).cfg = s.cfg :=
  (authenticateFrom_cfg _).trans (retry_cfg doReadIdentifier_cfg _)

theorem runSoftReset_cfg (s : State) : (runSoftReset s).cfg = s.cfg :=
  (conclude_cfg _ _).trans (retry_cfg doSoftResetTxn_cfg _)

/-- Settles O45: a command keeps two blocks that differ in their times alike, and keeps its parameters. -/
theorem noOutcomeDependsOnTime : Obligations.NoOutcomeDependsOnTime := by
  intro s t g settle clk hidle i hi hexec other
  have hkept := retimed_keptByCommands other
  have hstart : Retimed other s { s with cfg := other } := ⟨s.line.traceRev, s.line.gapNo, rfl⟩
  obtain ⟨run, hrun, hcfg, tr, no, hend⟩ := command_cases
    (P := fun _ run => (run s).cfg = s.cfg ∧ Retimed other (run s) (run { s with cfg := other }))
    ⟨runGetIdentifier_cfg s, hkept.runGetIdentifier hstart⟩ ⟨runAuthenticate_cfg s, hkept.runAuthenticate hstart⟩
    ⟨runSoftReset_cfg s, hkept.runSoftReset hstart⟩ i hi
  rw [hrun s hidle] at hexec
  cases hexec
  refine ⟨_, hrun _ hidle, ?_⟩
  rw [hend, retimed, hcfg]
  rfl

end Sys2Proof.Proofs
end
